-- ==== Sys2Proof/Word.lean ====
section
/-! DEFINITION. The words of the part: bytes on the link, in the image and on the panel port, and register values. -/

namespace Sys2Proof

/-- One byte of the control link, the panel port or the profile image (R172, R199, R200). -/
abbrev Byte := BitVec 8

/-- A register value, expected value or mask in the 4-byte form of R196: a value of width 1 or 2 stands in the
low bytes and the bytes above its width are 0. -/
abbrev Word := BitVec 32

end Sys2Proof
end

