-- ==== Sys2Proof/Config.lean ====
section
/-! DEFINITION. The fixed capacities of the part (00_scope.md, "Capacities") and the values its manual leaves open. -/

namespace Sys2Proof.Config

/-- Register table records (R85). -/
abbrev tableCapacity : Nat := 1024

/-- Entries of a two-wire lane's pointer table (R47). -/
abbrev pointerCapacity : Nat := 8

/-- The largest count of seeds in a profile image (R186). -/
abbrev seedCapacity : Nat := 256

/-- One past the last flash offset an image or a store reaches (R186, R194). -/
abbrev flashSize : Nat := 8336

/-- The saturation value of every 16-bit count (00_scope.md, "Counts"). -/
abbrev countMax : Nat := 65535

/-- The saturation value of the epoch counter (R86). -/
abbrev epochMax : Nat := 4294967295

/-- DESIGN CHOICE (log 14, safe): R19 leaves unchecked the LANE-SET pin map entry of a select beyond the select count
and does not say what is held when it is above 15. The probe number held is a free value, a function of the byte given. -/
opaque heldUnusedSelect : Byte → Fin 16

end Sys2Proof.Config
end

