-- ==== Sys2Proof/Syntax.lean ====
section
/-! DEFINITION. The commands of the part: one constructor of `Instr` for each row of spec/opcode_table.json. -/

namespace Sys2Proof

/-- The commands of the control link (R175). -/
inductive Cmd where
  | identify | release | status | acknowledge | attnEnable | restart
  | probeSet | probeRead | laneSet | laneEnable | laneStatus
  | lookup | walk | walkFrom | seed | amend | retire | clearTable | tableInfo | hold
  | watchSet | watchFree | takeWatch | trapSet | trapRead
  | viewSet | viewOptions | panelSet
  | powerSet | powerStatus | sleep
  | profileLoad | profileStore | profileStatus
  deriving DecidableEq, Repr

/-- What follows the command byte of a transaction (R173): the length byte, and the operand bytes that a length of
1 to 64 announces. -/
structure Frame where
  /-- The operand length byte, 0 to 255. -/
  len : Byte
  /-- The operand bytes read; none when the length is 0 or above 64 (R174). -/
  operands : List Byte
  deriving DecidableEq, Repr

/-- The two moments of a link command whose service is apart from its taking (R174, R176; log 2). -/
inductive Moment where
  /-- The byte cell that takes the command completes (R174). -/
  | taken
  /-- The owner serves the waiting command (R89, R90, R176). -/
  | served
  deriving DecidableEq, Repr

/-- A probe pin takes a new voltage (R2). -/
structure PinChange where
  /-- The probe, P0 to P15. -/
  probe : Fin 16
  /-- The voltage in millivolts. -/
  millivolts : Nat
  deriving DecidableEq, Repr

/-- What one moment brings to the probes: pins take new voltages, and candidates are due (R3, R6; log 26). -/
structure RawChange where
  /-- The pins that take a new voltage. -/
  pins : List PinChange
  /-- The probes on whose candidates the glitch width passes at that moment. -/
  due : List (Fin 16)
  deriving DecidableEq, Repr

/-- Candidates on which the glitch width passes at one moment (R5, R6). -/
structure DueEdges where
  /-- The probes that hold them. -/
  probes : List (Fin 16)
  /-- That moment is the one at which a bank next takes settings (R6, R9, R17; log 26). -/
  withBank : Bool
  deriving DecidableEq, Repr

/-- How a byte cell comes: whole, or one LCLK edge at a time (R172; log 23). -/
inductive CellPart where
  /-- The clock edges the cell still lacks, up to its eighth rising one; the host sends `b` (R172). -/
  | whole (b : Byte)
  /-- LCLK rises with this level on LDI (R172). -/
  | rise (ldi : Bool)
  /-- LCLK falls (R172). -/
  | fall
  deriving DecidableEq, Repr

/-- The steps of the part, each whole and indivisible (95_what_each_step_holds.md). -/
inductive Instr where
  /-- IDENTIFY 0x01 (R182). -/
  | identify (f : Frame)
  /-- RELEASE 0x02 (R180). -/
  | release (f : Frame)
  /-- STATUS 0x03 (R137). -/
  | status (f : Frame)
  /-- ACKNOWLEDGE 0x04 (R134). -/
  | acknowledge (f : Frame)
  /-- ATTN-ENABLE 0x05 (R135). -/
  | attnEnable (f : Frame)
  /-- RESTART 0x0F (R183). -/
  | restart (f : Frame)
  /-- PROBE-SET 0x10 (R9). -/
  | probeSet (f : Frame)
  /-- PROBE-READ 0x11 (R11). -/
  | probeRead (m : Moment) (f : Frame)
  /-- LANE-SET 0x18 (R19). -/
  | laneSet (f : Frame)
  /-- LANE-ENABLE 0x19 (R21). -/
  | laneEnable (f : Frame)
  /-- LANE-STATUS 0x1A (R30). -/
  | laneStatus (m : Moment) (f : Frame)
  /-- LOOKUP 0x20 (R104). -/
  | lookup (m : Moment) (f : Frame)
  /-- WALK 0x21 (R106). -/
  | walk (m : Moment) (f : Frame)
  /-- WALK-FROM 0x22 (R105). -/
  | walkFrom (m : Moment) (f : Frame)
  /-- SEED 0x23 (R109). -/
  | seed (m : Moment) (f : Frame)
  /-- AMEND 0x24 (R111). -/
  | amend (m : Moment) (f : Frame)
  /-- RETIRE 0x25 (R112). -/
  | retire (m : Moment) (f : Frame)
  /-- CLEAR-TABLE 0x26 (R113). -/
  | clearTable (m : Moment) (f : Frame)
  /-- TABLE-INFO 0x27 (R114). -/
  | tableInfo (m : Moment) (f : Frame)
  /-- HOLD 0x28 (R101). -/
  | hold (m : Moment) (f : Frame)
  /-- WATCH-SET 0x30 (R119). -/
  | watchSet (m : Moment) (f : Frame)
  /-- WATCH-FREE 0x31 (R120). -/
  | watchFree (f : Frame)
  /-- TAKE-WATCH 0x32 (R122). -/
  | takeWatch (f : Frame)
  /-- TRAP-SET 0x33 (R130). -/
  | trapSet (m : Moment) (f : Frame)
  /-- TRAP-READ 0x34 (R131). -/
  | trapRead (f : Frame)
  /-- VIEW-SET 0x38 (R139). -/
  | viewSet (f : Frame)
  /-- VIEW-OPTIONS 0x39 (R146). -/
  | viewOptions (f : Frame)
  /-- PANEL-SET 0x3A (R156). -/
  | panelSet (f : Frame)
  /-- POWER-SET 0x40 (R168). -/
  | powerSet (f : Frame)
  /-- POWER-STATUS 0x41 (R169). -/
  | powerStatus (f : Frame)
  /-- SLEEP 0x42 (R170). -/
  | sleep (m : Moment) (f : Frame)
  /-- PROFILE-LOAD 0x48 (R192). -/
  | profileLoad (f : Frame)
  /-- PROFILE-STORE 0x49 (R193). -/
  | profileStore (f : Frame)
  /-- PROFILE-STATUS 0x4A (R195). -/
  | profileStatus (f : Frame)
  /-- A command byte that names no command of the part (R174). -/
  | unknownCommand (byte : Byte) (f : Frame)
  /-- LSEL falls (R173). -/
  | lselFallingEdge
  /-- LSEL rises (R177). -/
  | lselRisingEdge
  /-- The rest of the answer frame is clocked out, its last byte with LSEL low (R178). -/
  | completeDelivery
  /-- Probe pins take new voltages at one moment, at which the glitch width passes on the candidates due (R3, R6, R10;
  log 26). -/
  | rawLevelChange (change : RawChange)
  /-- The glitch width passes on the candidates of some probes at one moment (R5, R6). -/
  | qualifiedEdge (edges : DueEdges)
  /-- The RTE serves the posting of a lane's slot (R91). -/
  | absorption (lane : Fin 4)
  /-- The RTE serves a lane's marking request (R100). -/
  | marking (lane : Fin 4)
  /-- The RTE serves a lane's retirement request (R100). -/
  | retirement (lane : Fin 4)
  /-- The RTE serves a ranking slice (R149). -/
  | rankingSlice
  /-- The RTE serves a drawing slice (R150). -/
  | drawingSlice
  /-- The RTE serves the settings block of a load (R190). -/
  | settingsBlock
  /-- The RTE serves one seed of a load (R191). -/
  | seedApplication
  /-- The image of a load has been read and is judged (R188). -/
  | imageJudgement
  /-- The store's write of 0x00 to the fourth byte completes (R194). -/
  | invalidate
  /-- The store's erase completes (R194). -/
  | erase
  /-- The store's programming completes; `defects` are the flash cells that hold another byte than the one written
  (R194; log 8). -/
  | program (defects : List Host.Cell)
  /-- The store's read-back completes (R194). -/
  | verify
  /-- The store's write of 0xA8 to the fourth byte completes (R194). -/
  | commit
  /-- The epoch timer expires (R86). -/
  | epochExpiry
  /-- The dim timer expires (R159). -/
  | dimTimerExpiry
  /-- The dark timer expires (R159). -/
  | darkTimerExpiry
  /-- The sleep timer expires (R159). -/
  | sleepTimerExpiry
  /-- Sleep entry completes (R163). -/
  | sleepEntryCompletion
  /-- The glitch width passes on the candidate of a wake comparator (R14). -/
  | wakeSideEdge (probe : Fin 16)
  /-- Wake completes (R167). -/
  | wakeCompletion
  /-- The refresh timer expires (R147). -/
  | refreshExpiry
  /-- A LINE message has left the panel port (R151). -/
  | line
  /-- The HOLDKEY input takes a level: `low` while the key is pressed (R161). -/
  | holdkeyChange (low : Bool)
  /-- The HOLDKEY input has stood at the candidate level for 20 ms (R161). -/
  | debounceExpiry
  /-- Power is applied (R181). -/
  | powerOn
  /-- The RESET input is asserted (R181). -/
  | resetPin
  /-- The supply falls below the operating level (R181). -/
  | supplyLow
  /-- A byte cell, or one of its clock edges (R172, R173). -/
  | byteCell (p : CellPart)
  /-- A PANEL-ON or PANEL-OFF message has left the panel port (R154). -/
  | panelMessageSent
  /-- The full reset is released (R116, R171, R185, R187). -/
  | resetRelease
  deriving DecidableEq, Repr

end Sys2Proof
end

