-- ==== Sys2Proof/Decode.lean ====
section
/-! DEFINITION. The command bytes and operand lengths of the control link (R175), and the host's reading of a table word.
The table gives no row any bits, so no word spells a command. -/

namespace Sys2Proof

/-- Every command of the link, in the order of R175. -/
def Cmd.all : List Cmd :=
  [.identify, .release, .status, .acknowledge, .attnEnable, .restart, .probeSet, .probeRead, .laneSet, .laneEnable,
    .laneStatus, .lookup, .walk, .walkFrom, .seed, .amend, .retire, .clearTable, .tableInfo, .hold, .watchSet,
    .watchFree, .takeWatch, .trapSet, .trapRead, .viewSet, .viewOptions, .panelSet, .powerSet, .powerStatus, .sleep,
    .profileLoad, .profileStore, .profileStatus]

/-- The command byte (R175). -/
def Cmd.code : Cmd → Byte
  | .identify => 0x01 | .release => 0x02 | .status => 0x03 | .acknowledge => 0x04 | .attnEnable => 0x05
  | .restart => 0x0F | .probeSet => 0x10 | .probeRead => 0x11 | .laneSet => 0x18 | .laneEnable => 0x19
  | .laneStatus => 0x1A | .lookup => 0x20 | .walk => 0x21 | .walkFrom => 0x22 | .seed => 0x23 | .amend => 0x24
  | .retire => 0x25 | .clearTable => 0x26 | .tableInfo => 0x27 | .hold => 0x28 | .watchSet => 0x30
  | .watchFree => 0x31 | .takeWatch => 0x32 | .trapSet => 0x33 | .trapRead => 0x34 | .viewSet => 0x38
  | .viewOptions => 0x39 | .panelSet => 0x3A | .powerSet => 0x40 | .powerStatus => 0x41 | .sleep => 0x42
  | .profileLoad => 0x48 | .profileStore => 0x49 | .profileStatus => 0x4A

/-- The command's one operand length (R175). -/
def Cmd.operandLength : Cmd → Nat
  | .identify => 0 | .release => 0 | .status => 0 | .acknowledge => 2 | .attnEnable => 2 | .restart => 0
  | .probeSet => 4 | .probeRead => 1 | .laneSet => 25 | .laneEnable => 2 | .laneStatus => 2 | .lookup => 4
  | .walk => 1 | .walkFrom => 4 | .seed => 4 | .amend => 27 | .retire => 4 | .clearTable => 1 | .tableInfo => 0
  | .hold => 1 | .watchSet => 5 | .watchFree => 1 | .takeWatch => 1 | .trapSet => 10 | .trapRead => 2
  | .viewSet => 7 | .viewOptions => 1 | .panelSet => 2 | .powerSet => 25 | .powerStatus => 1 | .sleep => 0
  | .profileLoad => 1 | .profileStore => 0 | .profileStatus => 0

/-- The command a byte names, if it names one (R174, R175). -/
def Cmd.ofByte (b : Byte) : Option Cmd :=
  Cmd.all.find? fun c => c.code == b

/-- A frame as the link delivers it: a length of 1 to 64 is followed by that many operand bytes, and any other length by
none (R173, R174). -/
def Frame.wellFormed (f : Frame) : Bool :=
  f.operands.length == (if f.len.toNat ≤ 64 then f.len.toNat else 0)

/-- The bytes of a command frame in the order the host sends them (12.1). -/
def Frame.bytes (command : Byte) (f : Frame) : List Byte :=
  command :: f.len :: f.operands

/-- The frame that carries these operand bytes under their own length. -/
def Frame.ofOperands (ops : List Byte) : Frame :=
  ⟨BitVec.ofNat 8 ops.length, ops⟩

/-- No row of spec/opcode_table.json gives bits, so no word spells a command. -/
def decodeTableWord (_nbits _w : Nat) : Option Instr :=
  none

end Sys2Proof
end

