-- ==== Sys2Proof/WellFormed.lean ====
section
/-! DEFINITION. Which commands can come about as they are written: a frame carries the bytes its length announces, and
the lists of pins, probes and flash cells name distinct members in range. -/

namespace Sys2Proof

/-- The well-formedness check of a command. -/
def Instr.wellFormed : Instr → Bool
  | .identify f | .release f | .status f | .acknowledge f | .attnEnable f | .restart f | .probeSet f | .laneSet f
  | .laneEnable f | .watchFree f | .takeWatch f | .trapRead f | .viewSet f | .viewOptions f | .panelSet f
  | .powerSet f | .powerStatus f | .profileLoad f | .profileStore f | .profileStatus f => f.wellFormed
  | .probeRead _ f | .laneStatus _ f | .lookup _ f | .walk _ f | .walkFrom _ f | .seed _ f | .amend _ f
  | .retire _ f | .clearTable _ f | .tableInfo _ f | .hold _ f | .watchSet _ f | .trapSet _ f | .sleep _ f =>
    f.wellFormed
  | .unknownCommand b f => (Cmd.ofByte b).isNone && f.wellFormed
  | .rawLevelChange c => !c.pins.isEmpty && decide (c.pins.map (·.probe)).Nodup && decide c.due.Nodup
  | .qualifiedEdge e => !e.probes.isEmpty && decide e.probes.Nodup
  | .program ds => decide (ds.map (·.1)).Nodup && ds.all fun d => d.1 < Config.flashSize && d.1 != 3
  | .lselFallingEdge | .lselRisingEdge | .completeDelivery | .absorption _ | .marking _ | .retirement _
  | .rankingSlice | .drawingSlice | .settingsBlock | .seedApplication | .imageJudgement | .invalidate | .erase
  | .verify | .commit | .epochExpiry | .dimTimerExpiry | .darkTimerExpiry | .sleepTimerExpiry
  | .sleepEntryCompletion | .wakeSideEdge _ | .wakeCompletion | .refreshExpiry | .line | .holdkeyChange _
  | .debounceExpiry | .powerOn | .resetPin | .supplyLow | .byteCell _ | .panelMessageSent | .resetRelease => true

end Sys2Proof
end

