-- ==== Sys2Proof/Machine/State.lean ====
section
/-! DEFINITION. The state of the part, block by block (00_scope.md, "Purpose of each block"), its reset value and the
reasons a step can stop. -/

namespace Sys2Proof.Machine

/-! ## Keys -/

/-- The name of a register: lane 0-3, target 0-1023, register 0-65535 (R84, R196). -/
structure Key where
  lane : Fin 4
  target : BitVec 10
  register : BitVec 16
  deriving DecidableEq, Repr

/-- The direction of a register access. -/
inductive Dir where
  | write | read
  deriving DecidableEq, Repr

/-! ## Probe Front End -/

/-- A bank's settings: threshold code 10-250 and glitch width 0-15 (R1). -/
structure Bank where
  code : Nat
  width : Nat
  deriving DecidableEq, Repr

/-- A level change being qualified, with the glitch width it was started with (R3, R4). -/
structure Candidate where
  level : Bool
  width : Nat
  deriving DecidableEq, Repr

/-- A wake comparator: its reference level and the candidate its filter holds (R14). -/
structure WakeComparator where
  ref : Bool
  candidate : Option Candidate
  deriving DecidableEq, Repr

/-- A probe record (R5) with the filter candidate (R3), the PROBE-READ clear note (R12) and the wake comparator (R14). -/
structure Probe where
  level : Bool
  edgesNow : Nat
  edgesLast : Nat
  glitch : Bool
  candidate : Option Candidate
  clearNote : Bool
  wake : Option WakeComparator
  deriving DecidableEq, Repr

/-- The Probe Front End: two banks, sixteen probes and the voltages at their pins in millivolts (R1, R2, R5). -/
structure Pfe where
  banks : Vector Bank 2
  probes : Vector Probe 16
  pins : Vector Nat 16
  /-- The probes whose candidates are due at the moment a bank next takes settings: the model's own (R6; log 26). -/
  due : List (Fin 16)
  deriving DecidableEq, Repr

/-! ## Lanes -/

/-- The bus kinds (R18). -/
inductive LaneKind where
  | none | twoWire | fourWire | management
  deriving DecidableEq, Repr

/-- The byte order of a register's bytes on the bus (R25). -/
inductive ByteOrder where
  | big | little
  deriving DecidableEq, Repr

/-- The bit order of a four-wire byte (R58). -/
inductive BitOrder where
  | msbFirst | lsbFirst
  deriving DecidableEq, Repr

/-- What the top bit of a four-wire command says (R62). -/
inductive Polarity where
  | readIsOne | readIsZero
  deriving DecidableEq, Repr

/-- Whether a four-wire register address steps (R63). -/
inductive Autoincrement where
  | always | never | flag
  deriving DecidableEq, Repr

/-- The probe of every role of every kind (R18, R197). -/
structure PinMap where
  twoClock : Fin 16
  twoData : Fin 16
  fourClock : Fin 16
  sel : Vector (Fin 16) 4
  cdat : Fin 16
  tdat : Fin 16
  mgmtClock : Fin 16
  mgmtData : Fin 16
  deriving DecidableEq, Repr

/-- A lane's configuration (R18). -/
structure LaneConfig where
  kind : LaneKind
  /-- Register width W in bytes: 1, 2 or 4. -/
  w : Nat
  /-- Register address bytes A: 1 or 2. -/
  a : Nat
  byteOrder : ByteOrder
  activity : Bool
  tenBit : Bool
  /-- Clock mode 0-3 (R57). -/
  clockMode : Nat
  bitOrder : BitOrder
  /-- Select count 1-4. -/
  selectCount : Nat
  polarity : Polarity
  autoinc : Autoincrement
  /-- Read latency 0-3 bytes. -/
  latency : Nat
  /-- Minimum preamble 0-32. -/
  preamble : Nat
  pins : PinMap
  deriving DecidableEq, Repr

/-- The four lane states (R22). -/
inductive LaneState where
  | off | seeking | idle | inFrame
  deriving DecidableEq, Repr

/-- One register access (R23). -/
structure Posting where
  key : Key
  dir : Dir
  value : Word
  width : Nat
  deriving DecidableEq, Repr

/-- The phase of a two-wire transfer with the fields that phase holds (chapter 3, R42 to R46, R49 to R52). -/
inductive TwoPhase where
  | address
  /-- The two high bits of a ten-bit target (R45). -/
  | addressLow (high : BitVec 2)
  /-- The target and the pointer bytes collected (R49). -/
  | pointer (target : BitVec 10) (collected : List Byte)
  /-- The target, the direction and the bytes of the register in progress (R50, R52). -/
  | data (target : BitVec 10) (dir : Dir) (register : List Byte)
  /-- IGNORE; `some` register in progress exactly while the controller-NACK mark is set (R43, R52). -/
  | ignore (kept : Option (List Byte))
  deriving DecidableEq, Repr

/-- The decode context of a two-wire lane (chapter 3). -/
structure TwoWire where
  /-- The bits of the byte cell taken, first bit first (R40). -/
  bits : List Bool
  /-- The pending sample (R38). -/
  sample : Option Bool
  phase : TwoPhase
  /-- The frame ten-bit target (R45). -/
  frameTarget : Option (BitVec 10)
  deriving DecidableEq, Repr

/-- What a four-wire command names: direction, increment flag, register address (R62). -/
structure Access where
  dir : Dir
  increment : Bool
  register : BitVec 16
  deriving DecidableEq, Repr

/-- The phase of a four-wire frame with the fields that phase holds (chapter 4). -/
inductive FourPhase where
  /-- The command bytes collected (R62). -/
  | command (collected : List Byte)
  /-- The latency bytes skipped (R64). -/
  | latency (access : Access) (skipped : Nat)
  /-- The bytes of the register in progress (R65, R66). -/
  | data (access : Access) (register : List Byte)
  | contended
  deriving DecidableEq, Repr

/-- The decode context of a four-wire lane (chapter 4). -/
structure FourWire where
  armed : Bool
  /-- The bits taken from CDAT, first bit first (R58). -/
  cBits : List Bool
  /-- The bits taken from TDAT, first bit first (R58). -/
  tBits : List Bool
  target : Fin 4
  phase : FourPhase
  deriving DecidableEq, Repr

/-- The phase of a management frame with the bits it has taken, first bit first, and the fields held (R75 to R79). -/
inductive MgmtPhase where
  | operation (bits : List Bool)
  | device (dir : Dir) (bits : List Bool)
  | register (dir : Dir) (device : Nat) (bits : List Bool)
  | turnaround (dir : Dir) (device register : Nat) (bits : List Bool)
  | data (dir : Dir) (device register : Nat) (bits : List Bool)
  deriving DecidableEq, Repr

/-- The decode context of a management lane (chapter 5). -/
structure Mgmt where
  /-- Run count 0-32 (R73). -/
  run : Nat
  startMark : Bool
  phase : MgmtPhase
  deriving DecidableEq, Repr

/-- A request a lane restart raises at the RTE (R31, R33). -/
inductive LaneRequest where
  | marking | retirement
  deriving DecidableEq, Repr

/-- One lane (chapter 2). -/
structure Lane where
  cfg : LaneConfig
  enabled : Bool
  state : LaneState
  two : TwoWire
  four : FourWire
  mgmt : Mgmt
  /-- The pointer table: target and pointer, most recently used first (R47). -/
  pointers : List (BitVec 10 × BitVec 16)
  /-- The posting slot (R24). -/
  slot : Option Posting
  /-- The nine sticky flags, bit n for the flag at place n of R28. -/
  flags : BitVec 9
  /-- The LANE-STATUS clear notes, one per flag (R30). -/
  notes : BitVec 9
  /-- The request waiting at the RTE (R31). -/
  request : Option LaneRequest
  deriving DecidableEq, Repr

/-! ## Register Table Engine -/

/-- A value observed and the direction of the posting that last changed it (R84). -/
structure Seen where
  value : Word
  origin : Dir
  deriving DecidableEq, Repr

/-- The held part of a record (R84, R98). -/
inductive Held where
  | none
  | value (v : Word)
  deriving DecidableEq, Repr

/-- An expected value and its mask (R84). -/
structure Expectation where
  expected : Word
  mask : Word
  deriving DecidableEq, Repr

/-- A record of the register table (R84). -/
structure Record where
  key : Key
  width : Nat
  seen : Option Seen
  written : Option Word
  held : Option Held
  expectation : Option Expectation
  label : Option (List Byte)
  pinned : Bool
  notify : Bool
  diverged : Bool
  mismatched : Bool
  unverified : Bool
  heat : Nat
  stamp : Nat
  lastAccess : Nat
  lastChange : Option Nat
  changes : Nat
  watch : Option (Fin 8)
  deriving DecidableEq, Repr

/-- The seven positions of the service rotation (R89). -/
inductive Position where
  | lane (i : Fin 4)
  | link | display | profile
  deriving DecidableEq, Repr

/-- The Register Table Engine (chapter 6). -/
structure Rte where
  table : List Record
  epoch : Nat
  /-- Whether the epoch timer runs (R86). -/
  epochTimer : Bool
  hold : Bool
  cursor : Key
  /-- Where complete delivery of the WALK answer in flight moves the cursor (R107). -/
  walkNote : Option Key
  /-- The first-refused capture: key and epoch (R94). -/
  capture : Option (Key × Nat)
  /-- The position served last (R89). -/
  last : Position
  /-- The position whose unit is being served (R89, R163). -/
  serving : Option Position
  deriving DecidableEq, Repr

/-! ## Watch, Trap and Attention Unit -/

/-- The taken-marker of a TAKE-WATCH answer in flight: whether the answer reported DETACHED, and the newer value with its
missed mark (R122 to R125). -/
structure Taken where
  reportedDetached : Bool
  newer : Option (Word × Bool)
  deriving DecidableEq, Repr

/-- A watch slot (R117). -/
inductive Slot where
  | free
  | armed (key : Key)
  | pending (key : Key) (value : Word) (missed : Bool) (taken : Option Taken)
  | detached (key : Key) (value : Option Word) (missed : Bool) (taken : Option Taken)
  deriving DecidableEq, Repr

/-- Trap window modes (R127). -/
inductive TrapMode where
  | off | notify | exclude
  deriving DecidableEq, Repr

/-- Trap window directions (R127). -/
inductive TrapDir where
  | write | read | both
  deriving DecidableEq, Repr

/-- The clear note of a TRAP-READ answer in flight: later count and later first-hit key (R131). -/
structure TrapNote where
  count : Nat
  first : Option Key
  deriving DecidableEq, Repr

/-- A trap window (R127). -/
structure Trap where
  mode : TrapMode
  lane : Fin 4
  target : BitVec 10
  low : Nat
  high : Nat
  dir : TrapDir
  count : Nat
  first : Option Key
  clearNote : Option TrapNote
  deriving DecidableEq, Repr

/-- The Watch, Trap and Attention Unit (chapter 7). Bit n of the sets is the cause at place n of R132. -/
structure Wta where
  slots : Vector Slot 8
  traps : Vector Trap 4
  /-- The event causes set. Bit 0, WATCH, follows the slots and is not held here (R132). -/
  causes : BitVec 9
  enables : BitVec 9
  deriving DecidableEq, Repr

/-! ## Display Engine -/

/-- The binding of a view row with its argument (R138). -/
inductive Binding where
  | empty
  | record (key : Key)
  | probe (p : Fin 16)
  | watch (slot : Fin 8)
  | auto
  deriving DecidableEq, Repr

/-- The format of a view row (R138). -/
inductive Format where
  | hex | decimal | binary
  deriving DecidableEq, Repr

/-- A view row's settings and its rebound mark (R138, R153). -/
structure Row where
  binding : Binding
  format : Format
  rebound : Bool
  deriving DecidableEq, Repr

/-- The text of a panel line: 40 character codes (R140). -/
abbrev Line := List Byte

/-- A message of the panel port (R199). -/
inductive PanelMessage where
  | line (n : Fin 17) (text : Line)
  | panelOn
  | panelOff
  deriving DecidableEq, Repr

/-- A key of the ranked list with the heat and last access epoch it was judged by (R149). -/
structure Ranked where
  key : Key
  heat : Nat
  access : Nat
  deriving DecidableEq, Repr

/-- What a table row of a refresh draws (R150). -/
inductive TableRow where
  | record (key : Key)
  | auto (key : Key)
  | watch (slot : Fin 8)
  deriving DecidableEq, Repr

/-- A line a refresh has composed: its number and text (R150). -/
structure Composed where
  n : Fin 17
  text : Line
  deriving DecidableEq, Repr

/-- The phase of a refresh (R148 to R151). -/
inductive RefreshPhase where
  /-- The ranking cursor and the ranked list (R149). -/
  | ranking (cursor : Key) (ranked : List Ranked)
  /-- The table rows not yet drawn, in row order, and the lines composed (R150). -/
  | drawing (todo : List (Fin 16 × TableRow)) (composed : List Composed)
  /-- Its LINE messages are leaving the panel port (R151). -/
  | sending
  deriving DecidableEq, Repr

/-- The refresh in flight with its snapshot (R148). -/
structure Refresh where
  rows : Vector Row 16
  window : Nat
  holdOn : Bool
  isRepaint : Bool
  phase : RefreshPhase
  deriving DecidableEq, Repr

/-- The Display Engine (chapter 8). -/
structure Dse where
  /-- View rows 1 to 16, row n at index n - 1. -/
  rows : Vector Row 16
  window : Nat
  runLevel : Nat
  dimLevel : Nat
  lastSent : Vector Line 17
  panelOn : Bool
  /-- Stopped, or running with this period in milliseconds (R147). -/
  refreshTimer : Option Nat
  refresh : Option Refresh
  /-- The panel port's messages in the order queued, the first one being sent (R151). -/
  port : List PanelMessage
  deriving DecidableEq, Repr

/-! ## Power and Wake Unit -/

/-- The power states (R158). -/
inductive PowerState where
  | run | dim | dark | sleep
  deriving DecidableEq, Repr

/-- The operation in flight of the PWU (chapter 9). -/
inductive PowerOp where
  | none | sleepEntry | wake
  deriving DecidableEq, Repr

/-- The chain timers (R159). -/
inductive ChainTimer where
  | dim | dark | sleep
  deriving DecidableEq, Repr

/-- A probe's wake edge setting (R168). -/
inductive WakeEdge where
  | none | rising | falling | either
  deriving DecidableEq, Repr

/-- The wake pending set: any of P0 to P15, HOLDKEY and LSEL (R166). -/
structure WakeSet where
  probes : BitVec 16
  holdkey : Bool
  lsel : Bool
  deriving DecidableEq, Repr

/-- A candidate of the key debounce; `fromReset` when the release of the reset started it (R161). -/
structure KeyCandidate where
  pressed : Bool
  fromReset : Bool
  deriving DecidableEq, Repr

/-- The Power and Wake Unit (chapter 9). -/
structure Pwu where
  power : PowerState
  op : PowerOp
  /-- Dim setting in seconds. -/
  dim : Nat
  /-- Dark setting in seconds. -/
  dark : Nat
  /-- Sleep setting in minutes. -/
  sleep : Nat
  /-- The one timer running and the setting it was started with (R159). -/
  timer : Option (ChainTimer × Nat)
  deferred : Bool
  keyActivity : Bool
  linkActivity : Bool
  wakeEdges : Vector WakeEdge 16
  holdkeyWake : Bool
  wakePending : WakeSet
  /-- The HOLDKEY input is low (R161). -/
  keyLow : Bool
  /-- The debounced level is PRESSED (R161). -/
  keyPressed : Bool
  keyCandidate : Option KeyCandidate
  /-- The members a POWER-STATUS answer in flight removes at delivery (R169). -/
  clearNote : Option WakeSet
  deriving DecidableEq, Repr

/-! ## Control Link -/

/-- The link states (R179). -/
inductive LinkState where
  | held | ready
  deriving DecidableEq, Repr

/-- The transaction phases (R173). -/
inductive Phase where
  | closed | command | length | operands | waiting | answer | trailer
  deriving DecidableEq, Repr

/-- The transaction record (chapter 10). -/
structure Txn where
  command : Option Byte
  len : Option Byte
  operands : List Byte
  /-- START and the answer frame (R176). -/
  answer : List Byte
  /-- How many bytes of `answer` have been sent. -/
  sent : Nat
  /-- An OK answer to RESTART: a full reset follows at the rise of LSEL (R183). -/
  restarts : Bool
  /-- An OK answer to SLEEP: sleep entry begins at the rise of LSEL (R170). -/
  sleeps : Bool
  deriving DecidableEq, Repr

/-- The byte cell in progress (R172). -/
structure Cell where
  /-- The bits taken from LDI, first bit first; none once the eighth rising edge has completed the cell. -/
  bits : List Bool
  /-- LCLK is high. -/
  clock : Bool
  /-- The byte the cell carries on LDO. -/
  out : Byte
  /-- That byte is the next one of `Txn.answer` (R176). -/
  answers : Bool
  deriving DecidableEq, Repr

/-- What began a full reset (R181). -/
inductive ResetCause where
  | powerOn | resetPin | command | supplyLow
  deriving DecidableEq, Repr

/-- The judgement of a profile image (R188). -/
inductive Validity where
  | valid | blank | corrupt
  deriving DecidableEq, Repr

/-- The reset cause record (R181; log 25). -/
structure ResetRecord where
  cause : ResetCause
  result : Validity
  loaded : Nat
  skipped : Nat
  deriving DecidableEq, Repr

/-- A command taken and not yet served (R90, R177); `cut` when LSEL has ended its transaction. -/
structure Waiting where
  cmd : Cmd
  operands : List Byte
  cut : Bool
  deriving DecidableEq, Repr

/-- A command taken while wake is in flight (R167). -/
structure Deferred where
  command : Byte
  frame : Frame
  cut : Bool
  deriving DecidableEq, Repr

/-- The Control Link (chapter 10). -/
structure Ctl where
  link : LinkState
  phase : Phase
  txn : Txn
  /-- The LSEL input is low. -/
  lselLow : Bool
  /-- The byte cell in progress; none while no transaction is open, when LDO is not driven (R172). -/
  cell : Option Cell
  record : ResetRecord
  waiting : List Waiting
  deferred : List Deferred
  deriving DecidableEq, Repr

/-! ## Profile Image Controller -/

/-- Which load runs (R187). -/
inductive LoadScope where
  | startUp | seeds | all
  deriving DecidableEq, Repr

/-- How far a load has come (R188 to R191). -/
inductive LoadStage where
  | reading | settings | seeding
  deriving DecidableEq, Repr

/-- A load in flight with its progress (R187). -/
structure Load where
  scope : LoadScope
  stage : LoadStage
  /-- The validity found, present after the judgement. -/
  validity : Option Validity
  /-- The index of the next seed. -/
  next : Nat
  loaded : Nat
  skipped : Nat
  /-- The keys of the seed entries already read. -/
  keys : List Key
  deriving DecidableEq, Repr

/-- The stages of a store (R194). -/
inductive StoreStage where
  | invalidate | erase | program | verify | commit
  deriving DecidableEq, Repr

/-- The profile operation in flight (R187). -/
inductive ProfileOp where
  | none
  | load (l : Load)
  | store (stage : StoreStage)
  deriving DecidableEq, Repr

/-- The store image composed at the snapshot (R193). -/
structure StoreImage where
  bytes : List Byte
  seeds : Nat
  truncated : Bool
  deriving DecidableEq, Repr

/-- The last completed profile operation (R187). -/
inductive LastOutcome where
  | load (scope : LoadScope) (result : Validity) (loaded skipped : Nat)
  | store (failed : Bool) (seeds : Nat) (truncated : Bool)
  deriving DecidableEq, Repr

/-- The private flash: (offset, byte) pairs with offsets strictly rising and no byte 0xFF listed; an offset not listed
reads 0xFF, as an erased byte does (R186). -/
abbrev Flash := List Host.Cell

/-- The Profile Image Controller (chapter 11) with the flash it alone drives. -/
structure Pim where
  op : ProfileOp
  image : StoreImage
  last : Option LastOutcome
  flash : Flash
  deriving DecidableEq, Repr

/-! ## The part -/

/-- The state of the part. -/
structure State where
  pfe : Pfe
  lanes : Vector Lane 4
  rte : Rte
  wta : Wta
  dse : Dse
  pwu : Pwu
  ctl : Ctl
  pim : Pim
  /-- The full reset is held; RESET-RELEASE ends it (R181, R185). -/
  inReset : Bool
  /-- The commands waiting, first in first out: the model's own (log 1). -/
  pending : List Instr
  deriving DecidableEq, Repr

/-- The spec names no fault: no step of the part stops it. -/
inductive Fault
  deriving DecidableEq, Repr

/-- The reasons a command has no meaning in the model. -/
inductive Refusal where
  /-- Raised by `exec` alone for a command without a meaning; no arm raises it. Safe. -/
  | notModelled (mnemonic : String)
  deriving DecidableEq, Repr

/-! ## Block updates -/

/-- `s` with another Probe Front End. -/
def State.setPfe (s : State) (x : Pfe) : State := { s with pfe := x }
/-- `s` with other lanes. -/
def State.setLanes (s : State) (x : Vector Lane 4) : State := { s with lanes := x }
/-- `s` with another Register Table Engine. -/
def State.setRte (s : State) (x : Rte) : State := { s with rte := x }
/-- `s` with another Watch, Trap and Attention Unit. -/
def State.setWta (s : State) (x : Wta) : State := { s with wta := x }
/-- `s` with another Display Engine. -/
def State.setDse (s : State) (x : Dse) : State := { s with dse := x }
/-- `s` with another Power and Wake Unit. -/
def State.setPwu (s : State) (x : Pwu) : State := { s with pwu := x }
/-- `s` with another Control Link. -/
def State.setCtl (s : State) (x : Ctl) : State := { s with ctl := x }
/-- `s` with another Profile Image Controller. -/
def State.setPim (s : State) (x : Pim) : State := { s with pim := x }
/-- `s` with one lane replaced. -/
def State.setLane (s : State) (i : Fin 4) (x : Lane) : State := { s with lanes := s.lanes.set i x }

/-! ## Reset values -/

/-- A probe record after full reset (R16). -/
def Probe.reset : Probe := ⟨false, 0, 0, false, none, false, none⟩

/-- The Probe Front End after full reset, with these pin voltages (R16). -/
def Pfe.reset (pins : Vector Nat 16) : Pfe :=
  ⟨Vector.replicate 2 ⟨80, 2⟩, Vector.replicate 16 Probe.reset, pins, []⟩

/-- The pin map after full reset: every role names probe 0 (R18). -/
def PinMap.reset : PinMap := ⟨0, 0, 0, Vector.replicate 4 0, 0, 0, 0, 0⟩

/-- The configuration after full reset (R18). -/
def LaneConfig.reset : LaneConfig :=
  ⟨.none, 1, 1, .big, false, false, 0, .msbFirst, 1, .readIsOne, .always, 0, 32, PinMap.reset⟩

/-- The cleared two-wire context (chapter 3). -/
def TwoWire.cleared : TwoWire := ⟨[], none, .address, none⟩

/-- The cleared four-wire context (chapter 4). -/
def FourWire.cleared : FourWire := ⟨false, [], [], 0, .command []⟩

/-- The cleared management context (R82). -/
def Mgmt.cleared : Mgmt := ⟨0, false, .operation []⟩

/-- A lane after full reset (R37). -/
def Lane.reset : Lane :=
  ⟨LaneConfig.reset, false, .off, TwoWire.cleared, FourWire.cleared, Mgmt.cleared, [], none, 0, 0, none⟩

/-- The first key, 0/0/0. -/
def Key.first : Key := ⟨0, 0, 0⟩

/-- The Register Table Engine after full reset (R116); its epoch timer starts at the release. -/
def Rte.reset (epochTimer : Bool) : Rte :=
  ⟨[], 0, epochTimer, false, Key.first, none, none, .profile, none⟩

/-- A trap window after full reset (R127). -/
def Trap.reset : Trap := ⟨.off, 0, 0, 0, 0, .both, 0, none, none⟩

/-- The Watch, Trap and Attention Unit after full reset (R117, R127, R132, R135). -/
def Wta.reset : Wta := ⟨Vector.replicate 8 .free, Vector.replicate 4 Trap.reset, 0, 0⟩

/-- The code of a space. -/
abbrev space : Byte := 0x20

/-- Forty spaces. -/
def blankLine : Line := List.replicate 40 space

/-- The Display Engine after full reset (R157). -/
def Dse.reset : Dse :=
  ⟨Vector.replicate 16 ⟨.auto, .hex, false⟩, 4, 12, 3, Vector.replicate 17 blankLine, false, none, none, []⟩

/-- The empty wake pending set. -/
def WakeSet.empty : WakeSet := ⟨0, false, false⟩

/-- The Power and Wake Unit after full reset, with this HOLDKEY input, timer and key candidate (R171). -/
def Pwu.reset (keyLow : Bool) (timer : Option (ChainTimer × Nat)) (candidate : Option KeyCandidate) : Pwu :=
  { power := .run, op := .none, dim := 30, dark := 60, sleep := 0, timer := timer, deferred := false,
    keyActivity := true, linkActivity := true, wakeEdges := Vector.replicate 16 .none, holdkeyWake := true,
    wakePending := WakeSet.empty, keyLow := keyLow, keyPressed := false, keyCandidate := candidate,
    clearNote := none }

/-- The empty transaction record. -/
def Txn.empty : Txn := ⟨none, none, [], [], 0, false, false⟩

/-- The Control Link after full reset with this cause and LSEL input (R185; log 25). -/
def Ctl.reset (cause : ResetCause) (lselLow : Bool) : Ctl :=
  ⟨.held, .closed, Txn.empty, lselLow, none, ⟨cause, .blank, 0, 0⟩, [], []⟩

/-- A load that has read nothing yet (R187). -/
def Load.start (scope : LoadScope) : Load := ⟨scope, .reading, none, 0, 0, 0, []⟩

/-- The empty store image. -/
def StoreImage.empty : StoreImage := ⟨[], 0, false⟩

/-- The Profile Image Controller after full reset with this operation and flash (R187). -/
def Pim.reset (op : ProfileOp) (flash : Flash) : Pim := ⟨op, StoreImage.empty, none, flash⟩

/-- The part right after reset: a power-on full reset has just been released, with every probe pin at 0 mV, HOLDKEY and
LSEL high and a flash that lists nothing (R16, R37, R116, R127, R135, R157, R171, R185, R187; log 5, log 6, log 7). -/
def State.reset : State :=
  { pfe := Pfe.reset (Vector.replicate 16 0)
    lanes := Vector.replicate 4 Lane.reset
    rte := Rte.reset true
    wta := Wta.reset
    dse := Dse.reset
    pwu := Pwu.reset false (some (.dim, 30)) none
    ctl := Ctl.reset .powerOn false
    pim := Pim.reset (.load (Load.start .startUp)) []
    inReset := false
    pending := [] }

end Sys2Proof.Machine
end

