-- ==== Sys2Proof/Machine/Flags.lean ====
section
/-! DEFINITION. The sticky lane flags (R28), the attention causes (R132) and the outputs computed from state: ATTN (R136)
and the backlight (R156). -/

namespace Sys2Proof.Machine

/-- The nine sticky lane flags in the order of R28. -/
inductive LaneFlag where
  | overrun | partialRegister | busError | unknownPointer | refusedByte | framing | contention | noResponse
  | unsupported
  deriving DecidableEq, Repr

/-- The flag's bit in the flag set: bit n for the flag at place n of R28 (R198). -/
def LaneFlag.bit : LaneFlag → BitVec 9
  | .overrun => 0x001 | .partialRegister => 0x002 | .busError => 0x004 | .unknownPointer => 0x008
  | .refusedByte => 0x010 | .framing => 0x020 | .contention => 0x040 | .noResponse => 0x080
  | .unsupported => 0x100

/-- The condition of a flag arises: the flag is set, and a clear note on it is withdrawn (R28, R30). -/
def Lane.setFlag (f : LaneFlag) (l : Lane) : Lane :=
  { l with flags := l.flags ||| f.bit, notes := l.notes &&& ~~~f.bit }

/-- Whether a flag went from clear to set between two readings of the flag set (R29). -/
def flagRose (before after : BitVec 9) : Bool :=
  (after &&& ~~~before) != 0

/-- The nine attention causes in the order of R132. -/
inductive Cause where
  | watch | mismatch | diverge | trap | admission | lane | profile | wake | hold
  deriving DecidableEq, Repr

/-- The cause's bit in the cause and enable sets (R196). -/
def Cause.bit : Cause → BitVec 9
  | .watch => 0x001 | .mismatch => 0x002 | .diverge => 0x004 | .trap => 0x008 | .admission => 0x010 | .lane => 0x020
  | .profile => 0x040 | .wake => 0x080 | .hold => 0x100

/-- An event cause is raised: it is set, and stays set through further raises (R132). -/
def raise (c : Cause) (s : State) : State :=
  s.setWta { s.wta with causes := s.wta.causes ||| c.bit }

/-- `raise` where a condition asks for it. -/
def raiseIf (b : Bool) (c : Cause) (s : State) : State :=
  if b then raise c s else s

/-- A slot is PENDING or DETACHED (R132). -/
def Slot.waits : Slot → Bool
  | .free | .armed _ => false
  | .pending .. | .detached .. => true

/-- How many slots are PENDING or DETACHED (R145). -/
def Wta.waitingSlots (w : Wta) : Nat :=
  (w.slots.toList.filter Slot.waits).length

/-- The cause set, WATCH given by the slots at this moment (R132, R137). -/
def Wta.causeSet (w : Wta) : BitVec 9 :=
  (w.causes &&& ~~~Cause.watch.bit) ||| (if w.slots.toList.any Slot.waits then Cause.watch.bit else 0)

/-- ATTN is driven low exactly while a cause is both set and enabled (R136). -/
def State.attnLow (s : State) : Bool :=
  (s.wta.causeSet &&& s.wta.enables) != 0

/-- The level a byte cell presents on LDO: its byte, most significant bit first, the next bit after each falling edge
(R172). -/
def Cell.ldo (c : Cell) : Bool :=
  c.out.getLsbD (if c.clock then (8 - c.bits.length) % 8 else 7 - c.bits.length)

/-- The LDO output; none while it is not driven (R172). -/
def State.ldo (s : State) : Option Bool := s.ctl.cell.map Cell.ldo

/-- The backlight output: the level of the power state while the panel is ON, and 0 otherwise (R156). -/
def State.backlight (s : State) : Nat :=
  if s.dse.panelOn then
    match s.pwu.power with
    | .run => s.dse.runLevel
    | .dim => s.dse.dimLevel
    | .dark | .sleep => 0
  else 0

end Sys2Proof.Machine
end

