-- ==== Sys2Proof/Machine/Operands.lean ====
section
/-! DEFINITION. The byte layouts of chapter 12 (R196, R197, R198): numbers, keys, codes, the operands of commands and the
parts of answer payloads. -/

namespace Sys2Proof.Machine

/-! ## Numbers and keys -/

/-- The number a run of bytes gives, most significant byte first (12, opening). -/
def beNat (bytes : List Byte) : Nat :=
  bytes.foldl (fun n b => n * 256 + b.toNat) 0

/-- A number as `n` bytes, most significant byte first. -/
def beBytes : Nat → Nat → List Byte
  | 0, _ => []
  | n + 1, v => BitVec.ofNat 8 (v / 256 ^ n) :: beBytes n v

/-- One byte holding a number. -/
def byteOf (n : Nat) : Byte := BitVec.ofNat 8 n

/-- One byte holding 1 for yes and 0 for no. -/
def boolByte (b : Bool) : Byte := if b then 1 else 0

/-- The `n` operand bytes from offset `i`. -/
def bytesAt (ops : List Byte) (i n : Nat) : List Byte :=
  (ops.drop i).take n

/-- The number in the `n` operand bytes from offset `i`. -/
def natAt (ops : List Byte) (i n : Nat) : Nat :=
  beNat (bytesAt ops i n)

/-- The operand byte at offset `i` as a number. -/
def byteAt (ops : List Byte) (i : Nat) : Nat :=
  (ops.getD i 0).toNat

/-- The 4-byte record value at offset `i` (R196). -/
def wordAt (ops : List Byte) (i : Nat) : Word :=
  BitVec.ofNat 32 (natAt ops i 4)

/-- A lane number from an operand, when it is 0-3. -/
def laneOf (n : Nat) : Option (Fin 4) :=
  if h : n < 4 then some ⟨n, h⟩ else none

/-- A slot number from an operand, when it is 0-7. -/
def slotOf (n : Nat) : Option (Fin 8) :=
  if h : n < 8 then some ⟨n, h⟩ else none

/-- A probe number from an operand, when it is 0-15. -/
def probeOf (n : Nat) : Option (Fin 16) :=
  if h : n < 16 then some ⟨n, h⟩ else none

/-- An option or enable byte that is refused unless 0 or 1 (R196). -/
def flagOf (n : Nat) : Option Bool :=
  if n = 0 then some false else if n = 1 then some true else none

/-- The key a 4-byte form names; the 4 bits between lane and target are disregarded (R85, R196). -/
def keyOf (bytes : List Byte) : Key :=
  let n := beNat bytes
  ⟨Fin.ofNat 4 (n / 2 ^ 30), BitVec.ofNat 10 (n / 2 ^ 16), BitVec.ofNat 16 n⟩

/-- The 4-byte form of a key (R196). -/
def Key.bytes (k : Key) : List Byte :=
  beBytes 4 (k.lane.val * 2 ^ 30 + k.target.toNat * 2 ^ 16 + k.register.toNat)

/-- Four zero bytes: an absent field (R196). -/
def absent4 : List Byte := beBytes 4 0

/-- A record value in its 4-byte form (R196). -/
def wordBytes (v : Word) : List Byte := beBytes 4 v.toNat

/-- An optional record value, absent as zeros (R196). -/
def optWordBytes (v : Option Word) : List Byte :=
  v.elim absent4 wordBytes

/-- The bits of a value below `8 * width`. -/
def widthMask (width : Nat) : Word :=
  BitVec.ofNat 32 (2 ^ (8 * width) - 1)

/-! ## Codes of R196 -/

/-- The code of a bus kind. -/
def LaneKind.code : LaneKind → Byte
  | .none => 0 | .twoWire => 1 | .fourWire => 2 | .management => 3
/-- The bus kind of a code. -/
def LaneKind.ofCode : Nat → Option LaneKind
  | 0 => some .none | 1 => some .twoWire | 2 => some .fourWire | 3 => some .management | _ => Option.none
/-- The code of a byte order. -/
def ByteOrder.code : ByteOrder → Byte
  | .big => 0 | .little => 1
/-- The byte order of a code. -/
def ByteOrder.ofCode : Nat → Option ByteOrder
  | 0 => some .big | 1 => some .little | _ => none
/-- The code of a bit order. -/
def BitOrder.code : BitOrder → Byte
  | .msbFirst => 0 | .lsbFirst => 1
/-- The bit order of a code. -/
def BitOrder.ofCode : Nat → Option BitOrder
  | 0 => some .msbFirst | 1 => some .lsbFirst | _ => none
/-- The code of a direction polarity. -/
def Polarity.code : Polarity → Byte
  | .readIsOne => 0 | .readIsZero => 1
/-- The direction polarity of a code. -/
def Polarity.ofCode : Nat → Option Polarity
  | 0 => some .readIsOne | 1 => some .readIsZero | _ => none
/-- The code of an autoincrement mode. -/
def Autoincrement.code : Autoincrement → Byte
  | .always => 0 | .never => 1 | .flag => 2
/-- The autoincrement mode of a code. -/
def Autoincrement.ofCode : Nat → Option Autoincrement
  | 0 => some .always | 1 => some .never | 2 => some .flag | _ => none
/-- The code of a lane state. -/
def LaneState.code : LaneState → Byte
  | .off => 0 | .seeking => 1 | .idle => 2 | .inFrame => 3
/-- The code of a trap mode. -/
def TrapMode.code : TrapMode → Byte
  | .off => 0 | .notify => 1 | .exclude => 2
/-- The trap mode of a code. -/
def TrapMode.ofCode : Nat → Option TrapMode
  | 0 => some .off | 1 => some .notify | 2 => some .exclude | _ => none
/-- The code of a trap direction. -/
def TrapDir.code : TrapDir → Byte
  | .write => 0 | .read => 1 | .both => 2
/-- The trap direction of a code. -/
def TrapDir.ofCode : Nat → Option TrapDir
  | 0 => some .write | 1 => some .read | 2 => some .both | _ => none
/-- The code of a row binding. -/
def Binding.code : Binding → Nat
  | .empty => 0 | .record _ => 1 | .probe _ => 2 | .watch _ => 3 | .auto => 4
/-- The code of a row format. -/
def Format.code : Format → Nat
  | .hex => 0 | .decimal => 1 | .binary => 2
/-- The row format of a code. -/
def Format.ofCode : Nat → Option Format
  | 0 => some .hex | 1 => some .decimal | 2 => some .binary | _ => none
/-- The code of a wake edge. -/
def WakeEdge.code : WakeEdge → Nat
  | .none => 0 | .rising => 1 | .falling => 2 | .either => 3
/-- The wake edge of a code. -/
def WakeEdge.ofCode : Nat → Option WakeEdge
  | 0 => some .none | 1 => some .rising | 2 => some .falling | 3 => some .either | _ => Option.none
/-- The code of a link state. -/
def LinkState.code : LinkState → Byte
  | .held => 0 | .ready => 1
/-- The code of a power state. -/
def PowerState.code : PowerState → Byte
  | .run => 0 | .dim => 1 | .dark => 2 | .sleep => 3
/-- The code of a reset cause. -/
def ResetCause.code : ResetCause → Byte
  | .powerOn => 0 | .resetPin => 1 | .command => 2 | .supplyLow => 3
/-- The code of a load's result. -/
def Validity.code : Validity → Byte
  | .valid => 0 | .blank => 1 | .corrupt => 2
/-- The code of a store stage. -/
def StoreStage.code : StoreStage → Byte
  | .invalidate => 0 | .erase => 1 | .program => 2 | .verify => 3 | .commit => 4
/-- The code of the profile operation in flight. -/
def ProfileOp.code : ProfileOp → Byte
  | .none => 0
  | .load l => match l.scope with
    | .startUp => 1 | .seeds => 2 | .all => 3
  | .store _ => 4
/-- The code of a slot state. -/
def Slot.code : Slot → Byte
  | .free => 0 | .armed _ => 1 | .pending .. => 2 | .detached .. => 3

/-! ## Lane configuration: operand bytes 1 to 24 of LANE-SET -/

/-- The pin map entries that the roles of the kind being set name (R18, R19): for FOUR-WIRE clock, the selects of the
clamped count, CDAT and TDAT. `e` is the pin map, 11 entries in the order of R197. -/
def roleEntries (kind : LaneKind) (selectCount : Nat) (e : List Nat) : List Nat :=
  match kind with
  | .none => []
  | .twoWire => e.take 2
  | .fourWire => (e.drop 2).take 1 ++ (e.drop 3).take selectCount ++ (e.drop 7).take 2
  | .management => (e.drop 9).take 2

/-- What the map holds for an entry of another kind: the entry when it is 0-15, and 0 otherwise (R19). -/
def heldEntry (n : Nat) : Fin 16 :=
  (probeOf n).getD 0

/-- What a FOUR-WIRE lane's map holds for select `i`: beyond the select count the entry is not checked, and above 15 the
held number is a free value (log 14). -/
def heldSelect (kind : LaneKind) (selectCount i n : Nat) : Fin 16 :=
  if kind = .fourWire ∧ selectCount ≤ i then (probeOf n).getD (Config.heldUnusedSelect (byteOf n)) else heldEntry n

/-- The pin map a LANE-SET installs (R19). -/
def heldPins (kind : LaneKind) (selectCount : Nat) (e : List Nat) : PinMap :=
  let at' (i : Nat) : Fin 16 := heldEntry (e.getD i 0)
  { twoClock := at' 0, twoData := at' 1, fourClock := at' 2
    sel := Vector.ofFn fun i => heldSelect kind selectCount i.val (e.getD (3 + i.val) 0)
    cdat := at' 7, tdat := at' 8, mgmtClock := at' 9, mgmtData := at' 10 }

/-- W and A are in their listed values, or the kind is MANAGEMENT, which holds its own (R18, R19). -/
def widthsAccepted (kind : LaneKind) (w a : Nat) : Bool :=
  kind = .management || ((w = 1 || w = 2 || w = 4) && (a = 1 || a = 2))

/-- A select count clamped into 1-4 (R19). -/
def clampSelects (n : Nat) : Nat := max 1 (min 4 n)

/-- The operand checks of LANE-SET after the lane number, and the configuration they accept, clamps applied (R18, R19).
`ops` are the 24 configuration bytes of R197. -/
def parseLaneConfig (ops : List Byte) : Option LaneConfig :=
  match LaneKind.ofCode (byteAt ops 0), ByteOrder.ofCode (byteAt ops 3), BitOrder.ofCode (byteAt ops 7),
      Polarity.ofCode (byteAt ops 9), Autoincrement.ofCode (byteAt ops 10) with
  | some kind, some byteOrder, some bitOrder, some polarity, some autoinc =>
    let selects := clampSelects (byteAt ops 8)
    let entries := (bytesAt ops 13 11).map BitVec.toNat
    let roles := roleEntries kind selects entries
    if byteAt ops 6 ≤ 3 ∧ widthsAccepted kind (byteAt ops 1) (byteAt ops 2) ∧ (∀ n ∈ roles, n ≤ 15) ∧ roles.Nodup then
      some
        { kind, byteOrder, bitOrder, polarity, autoinc
          w := if kind = .management then 2 else byteAt ops 1
          a := if kind = .management then 1 else byteAt ops 2
          activity := byteAt ops 4 % 2 = 1
          tenBit := byteAt ops 5 % 2 = 1
          clockMode := byteAt ops 6
          selectCount := selects
          latency := min 3 (byteAt ops 11)
          preamble := min 32 (byteAt ops 12)
          pins := heldPins kind selects entries }
    else none
  | _, _, _, _, _ => none

/-- The pin map's 11 entries in the order of R197. -/
def PinMap.entries (p : PinMap) : List (Fin 16) :=
  [p.twoClock, p.twoData, p.fourClock] ++ p.sel.toList ++ [p.cdat, p.tdat, p.mgmtClock, p.mgmtData]

/-- The 24 configuration bytes of LANE-SET, as held (R198). -/
def LaneConfig.bytes (c : LaneConfig) : List Byte :=
  [c.kind.code, byteOf c.w, byteOf c.a, c.byteOrder.code, boolByte c.activity, boolByte c.tenBit, byteOf c.clockMode,
    c.bitOrder.code, byteOf c.selectCount, c.polarity.code, c.autoinc.code, byteOf c.latency, byteOf c.preamble]
  ++ c.pins.entries.map fun p => byteOf p.val

/-! ## Trap windows -/

/-- The operands of TRAP-SET after the window number (R130, R197): the window they write when every check passes, its
count 0, its first-hit key absent and no clear note standing. -/
def trapOf (mode lane target low high dir : Nat) : Option Trap :=
  match TrapMode.ofCode mode, laneOf lane, TrapDir.ofCode dir with
  | some m, some l, some d =>
    if target ≤ 1023 ∧ low ≤ high then some ⟨m, l, BitVec.ofNat 10 target, low, high, d, 0, none, none⟩ else none
  | _, _, _ => none

/-- The 16-byte window of TRAP-READ and TRAP-SET answers (R198). -/
def Trap.bytes (t : Trap) : List Byte :=
  [t.mode.code, byteOf t.lane.val] ++ beBytes 2 t.target.toNat ++ beBytes 2 t.low ++ beBytes 2 t.high
    ++ [t.dir.code] ++ beBytes 2 t.count ++ [boolByte t.first.isSome] ++ t.first.elim absent4 Key.bytes

/-! ## View rows -/

/-- The binding of VIEW-SET: its code and its 4-byte argument (R139). -/
def bindingOf (code : Nat) (argument : List Byte) : Option Binding :=
  match code with
  | 0 => some .empty
  | 1 => some (.record (keyOf argument))
  | 2 => (probeOf (byteAt argument 3)).map .probe
  | 3 => (slotOf (byteAt argument 3)).map .watch
  | 4 => some .auto
  | _ => none

/-- The 4-byte argument of a binding, as held (R139, R198; log 15). -/
def Binding.argument : Binding → List Byte
  | .empty | .auto => absent4
  | .record k => k.bytes
  | .probe p => beBytes 4 p.val
  | .watch n => beBytes 4 n.val

/-! ## Power settings -/

/-- The settings POWER-SET writes (R168). -/
structure PowerSettings where
  dim : Nat
  dark : Nat
  sleep : Nat
  edges : Vector WakeEdge 16
  holdkeyWake : Bool
  keyActivity : Bool
  linkActivity : Bool
  deriving DecidableEq, Repr

/-- Sixteen wake edges from their codes, when each is a listed value (R168). -/
def edgesOf (codes : List Nat) : Option (Vector WakeEdge 16) :=
  if codes.all fun c => (WakeEdge.ofCode c).isSome then
    some (Vector.ofFn fun i => (WakeEdge.ofCode (codes.getD i.val 0)).getD .none)
  else none

/-- The operand checks of POWER-SET and the settings they accept, timers clamped to 255 (R168, R197). -/
def parsePower (ops : List Byte) : Option PowerSettings :=
  match edgesOf ((bytesAt ops 6 16).map BitVec.toNat), flagOf (byteAt ops 22), flagOf (byteAt ops 23),
      flagOf (byteAt ops 24) with
  | some edges, some holdkeyWake, some keyActivity, some linkActivity =>
    some ⟨min 255 (natAt ops 0 2), min 255 (natAt ops 2 2), min 255 (natAt ops 4 2), edges, holdkeyWake, keyActivity,
      linkActivity⟩
  | _, _, _, _ => none

/-- The 25 operand bytes of POWER-SET, as held (R198). -/
def Pwu.settingBytes (p : Pwu) : List Byte :=
  beBytes 2 p.dim ++ beBytes 2 p.dark ++ beBytes 2 p.sleep ++ p.wakeEdges.toList.map (fun e => byteOf e.code)
    ++ [boolByte p.holdkeyWake, boolByte p.keyActivity, boolByte p.linkActivity]

/-- The 3-byte wake pending set (R198): bit 0 of byte 0 HOLDKEY, bit 1 LSEL, bit n of bytes 1-2 probe Pn. -/
def WakeSet.bytes (w : WakeSet) : List Byte :=
  byteOf ((if w.holdkey then 1 else 0) + (if w.lsel then 2 else 0)) :: beBytes 2 w.probes.toNat

/-! ## Cause masks -/

/-- A cause mask, when no bit names no cause (R134, R135, R196). -/
def maskOf (ops : List Byte) : Option (BitVec 9) :=
  if natAt ops 0 2 < 512 then some (BitVec.ofNat 9 (natAt ops 0 2)) else none

/-- A cause or enable set as 2 bytes (R196). -/
def setBytes (c : BitVec 9) : List Byte := beBytes 2 c.toNat

/-! ## Answers -/

/-- The status codes (R184). -/
inductive Status where
  | ok | held | unknown | badOperand | noRecord | full | busy | already | nothing | denied
  deriving DecidableEq, Repr

/-- The code of a status (R184). -/
def Status.code : Status → Byte
  | .ok => 0 | .held => 1 | .unknown => 2 | .badOperand => 3 | .noRecord => 4 | .full => 5 | .busy => 6
  | .already => 7 | .nothing => 8 | .denied => 9

/-- An answer before it is framed: its status and payload. -/
structure Answer where
  status : Status
  payload : List Byte
  deriving DecidableEq, Repr

/-- A refusal: a payload length of 0 (R176). -/
def Answer.refuse (st : Status) : Answer := ⟨st, []⟩

/-- START and the answer frame (R176). -/
def Answer.bytes (a : Answer) : List Byte :=
  0xC3 :: a.status.code :: beBytes 2 a.payload.length ++ a.payload

end Sys2Proof.Machine
end

