-- ==== Sys2Proof/Machine/Ops.lean ====
section
/-! DEFINITION. The operations every block shares: updates of numbered resources, keys, the register table as a map
(R85), heat (R87), the service rotation (R89) and the private flash (R186). -/

namespace Sys2Proof.Machine

/-! ## Numbered resources -/

/-- Member `i` changed by `f`. -/
def modifyAt {α : Type} {n : Nat} (v : Vector α n) (i : Fin n) (f : α → α) : Vector α n :=
  v.set i (f v[i])

/-- Every member changed by `f`. -/
def mapAll {α β : Type} {n : Nat} (f : α → β) (v : Vector α n) : Vector β n :=
  Vector.ofFn fun i => f v[i]

/-- A 16-bit count raised by 1, saturating (00_scope.md, "Counts"). -/
def countUp (n : Nat) : Nat := min Config.countMax (n + 1)

/-! ## Keys -/

/-- A key's place in key order: lane, then target, then register (R85). -/
def Key.num (k : Key) : Nat :=
  k.lane.val * 2 ^ 26 + k.target.toNat * 2 ^ 16 + k.register.toNat

/-- The key at a place in key order. -/
def Key.ofNum (n : Nat) : Key :=
  ⟨Fin.ofNat 4 (n / 2 ^ 26), BitVec.ofNat 10 (n / 2 ^ 16), BitVec.ofNat 16 n⟩

/-- The key after a key; 3/1023/65535 has none (R85). -/
def Key.next (k : Key) : Option Key :=
  if k.num + 1 < 2 ^ 28 then some (Key.ofNum (k.num + 1)) else none

/-- The registers and targets a lane's present configuration can name (R26, R108). -/
def keyFits (c : LaneConfig) (k : Key) : Bool :=
  match c.kind with
  | .none => false
  | .twoWire => k.target.toNat < (if c.tenBit then 1024 else 128) && k.register.toNat < 2 ^ (8 * c.a)
  | .fourWire =>
    k.target.toNat < c.selectCount
      && k.register.toNat < 2 ^ (8 * c.a - (if c.autoinc = .flag then 2 else 1))
  | .management => k.target.toNat < 32 && k.register.toNat < 32

/-! ## The register table -/

/-- The record with a key (R85). -/
def lookup (k : Key) (t : List Record) : Option Record :=
  t.find? fun r => r.key = k

/-- A record placed at its key's place in key order (R85). -/
def insertRecord (r : Record) : List Record → List Record
  | [] => [r]
  | x :: xs => if r.key.num < x.key.num then r :: x :: xs else x :: insertRecord r xs

/-- The record with a key changed by `f`, which keeps its key. -/
def updateRecord (k : Key) (f : Record → Record) (t : List Record) : List Record :=
  t.map fun r => if r.key = k then f r else r

/-- The table without the record with a key. -/
def removeRecord (k : Key) (t : List Record) : List Record :=
  t.filter fun r => r.key ≠ k

/-- The table with the record of key `k` changed, in the part. -/
def modifyRecord (k : Key) (f : Record → Record) (s : State) : State :=
  s.setRte { s.rte with table := updateRecord k f s.rte.table }

/-- The value of a record (R84). -/
def Record.value (r : Record) : Option Word := r.seen.map (·.value)

/-- A record as admission creates it (R92): everything absent, clear or 0, its stamps at the present epoch. -/
def newRecord (k : Key) (width epoch : Nat) : Record :=
  { key := k, width, seen := none, written := none, held := none, expectation := none, label := none
    pinned := false, notify := false, diverged := false, mismatched := false, unverified := false
    heat := 0, stamp := epoch, lastAccess := epoch, lastChange := none, changes := 0, watch := none }

/-! ## Heat -/

/-- The step of R87 taken `n` times. -/
def decaySteps : Nat → Nat → Nat
  | 0, h => h
  | n + 1, h => decaySteps n (7 * h / 8)

/-- The decayed heat of a record at an epoch (R87). -/
def decayedHeat (r : Record) (epoch : Nat) : Nat :=
  decaySteps (min (epoch - r.stamp) 84) r.heat

/-- What one absorbed posting adds to the heat (R88). -/
def heatOf : Dir → Nat
  | .write => 4096
  | .read => 2048

/-- An age in epochs, saturated at 65535 (R104). -/
def ageOf (now since : Nat) : Nat := min Config.countMax (now - since)

/-! ## The service rotation -/

/-- The rotation order (R89). -/
def Position.order : List Position :=
  [.lane 0, .lane 1, .lane 2, .lane 3, .link, .display, .profile]

/-- A position's place in the rotation order. -/
def Position.place : Position → Nat
  | .lane i => i.val
  | .link => 4
  | .display => 5
  | .profile => 6

/-- The seven positions in rotation order, beginning with the one after `p` (R89). -/
def Position.after (p : Position) : List Position :=
  ((Position.order ++ Position.order).drop (p.place + 1)).take 7

/-- The RTE serves the command at its LINK position (R175). -/
def atLink : Cmd → Bool
  | .lookup | .walk | .walkFrom | .seed | .amend | .retire | .clearTable | .tableInfo | .hold | .watchSet
  | .trapSet => true
  | .identify | .release | .status | .acknowledge | .attnEnable | .restart | .probeSet | .probeRead | .laneSet
  | .laneEnable | .laneStatus | .watchFree | .takeWatch | .trapRead | .viewSet | .viewOptions | .panelSet
  | .powerSet | .powerStatus | .sleep | .profileLoad | .profileStore | .profileStatus => false

/-- A lane has a marking or retirement request waiting (R100). -/
def anyRequest (s : State) : Bool :=
  s.lanes.toList.any fun l => l.request.isSome

/-- A refresh has a slice to serve (R89, R149, R150). -/
def Dse.hasSlice (d : Dse) : Bool :=
  match d.refresh with
  | none => false
  | some r => match r.phase with
    | .ranking .. | .drawing .. => true
    | .sending => false

/-- A load has its settings block or a seed to apply (R89). The first seed after a settings block waits until every
request the settings raised has been served (R190). -/
def profileHasUnit (s : State) : Bool :=
  match s.pim.op with
  | .none | .store _ => false
  | .load l => match l.stage with
    | .reading => false
    | .settings => true
    | .seeding => !(l.next == 0 && l.scope != .seeds && anyRequest s)

/-- Whether a unit waits at a position (R89). -/
def unitWaits (s : State) : Position → Bool
  | .lane i => (s.lanes[i]).request.isSome || (s.lanes[i]).slot.isSome
  | .link => s.ctl.waiting.any fun w => atLink w.cmd
  | .display => s.dse.hasSlice
  | .profile => profileHasUnit s

/-- The position the RTE serves next when it is free: the first waiting one in rotation order after the one served last
(R89). -/
def nextPosition (s : State) : Option Position :=
  s.rte.last.after.find? (unitWaits s)

/-- The RTE takes up a unit when it is free. A unit withdrawn before it was taken leaves the RTE free (R154). -/
def settle (s : State) : State :=
  s.setRte { s.rte with serving :=
    match s.rte.serving with
    | some p => if unitWaits s p then some p else nextPosition s
    | none => nextPosition s }

/-- The RTE finishes the unit it was serving at position `p` (R89). -/
def finishUnit (p : Position) (s : State) : State :=
  s.setRte { s.rte with last := p, serving := none }

/-- A unit of work `f` at position `p`, which comes about only while the RTE is serving that position (R89; log 3). -/
def unitAt (p : Position) (f : State → State) (s : State) : State :=
  if s.rte.serving = some p then finishUnit p (f s) else s

/-- The outcome of every command: the part disregards it while a full reset is held (log 24), and the RTE takes up its next unit
afterwards. -/
def live (f : State → State) (s : State) : Host.Outcome State Fault Refusal :=
  .next (if s.inReset then s else settle (f s))

/-! ## The private flash -/

/-- What an offset the flash does not list reads as: an erased byte (R186). -/
def Flash.unlisted : Byte := 0xFF

/-- The canonical form: offsets strictly rising and no byte listed that an unlisted offset reads as. -/
def Flash.wf (m : Flash) : Bool :=
  m.all (fun c => c.2 != Flash.unlisted) && decide ((m.map (·.1)).Pairwise (· < ·))

/-- One byte of the flash. -/
def Flash.read (m : Flash) (a : Nat) : Byte :=
  ((m.find? fun c => c.1 = a).map (·.2)).getD Flash.unlisted

/-- The flash with offset `a` erased. -/
def Flash.drop (m : Flash) (a : Nat) : Flash :=
  m.filter fun c => c.1 ≠ a

/-- A cell placed at its offset's place. -/
def Flash.place (c : Host.Cell) : Flash → Flash
  | [] => [c]
  | x :: xs => if c.1 < x.1 then c :: x :: xs else x :: Flash.place c xs

/-- A byte written with a given value (R186). -/
def Flash.write (m : Flash) (a : Nat) (b : Byte) : Flash :=
  if b = Flash.unlisted then m.drop a else Flash.place (a, b) (m.drop a)

/-- Bytes written from offset `a` on. -/
def Flash.writeAll (m : Flash) (a : Nat) : List Byte → Flash
  | [] => m
  | b :: bs => Flash.writeAll (m.write a b) (a + 1) bs

/-- The offsets `lo` to `hi` erased (R186). -/
def Flash.eraseRange (m : Flash) (lo hi : Nat) : Flash :=
  m.filter fun c => ¬ (lo ≤ c.1 ∧ c.1 ≤ hi)

/-- The `n` bytes from offset `a`. -/
def Flash.readAll (m : Flash) (a n : Nat) : List Byte :=
  (List.range n).map fun i => Flash.read m (a + i)

end Sys2Proof.Machine
end

