-- ==== Sys2Proof/Machine/Text.lean ====
section
/-! DEFINITION. The panel's text (R140 to R145, R153): every line is 40 printable codes. -/

namespace Sys2Proof.Machine

/-! ## Characters and numbers -/

/-- The codes of a run of characters. -/
def codes (cs : List Char) : List Byte := cs.map fun c => byteOf c.toNat

/-- `n` spaces. -/
def spaces (n : Nat) : List Byte := List.replicate n space

/-- Text left-aligned in a field of `n` columns, padded with spaces. -/
def padRight (n : Nat) (t : List Byte) : List Byte := (t ++ spaces n).take n

/-- Text right-aligned in a field of `n` columns, padded with spaces. -/
def padLeft (n : Nat) (t : List Byte) : List Byte := spaces (n - t.length) ++ t

/-- A digit: 0-9, then the capitals A-F (R140). -/
def digit (d : Nat) : Byte := if d < 10 then byteOf (48 + d) else byteOf (55 + d)

/-- The `n` low digits of `v` in a base, most significant first. -/
def fixedDigits (base : Nat) : Nat → Nat → List Byte
  | 0, _ => []
  | n + 1, v => digit (v / base ^ n % base) :: fixedDigits base n v

/-- The decimal digits of a number without leading zeros, at most `fuel` of them. -/
def decimalDigits : Nat → Nat → List Byte
  | 0, _ => []
  | fuel + 1, n => if n < 10 then [digit n] else decimalDigits fuel (n / 10) ++ [digit (n % 10)]

/-- A number below 2^32 in decimal, no leading zeros. -/
def decimal (n : Nat) : List Byte := decimalDigits 10 n

/-- A key without a label: 'L', lane, target in 3 and register in 4 hexadecimal digits, 11 characters (R140). -/
def Key.text (k : Key) : List Byte :=
  codes ['L'] ++ [digit k.lane.val, space] ++ fixedDigits 16 3 k.target.toNat ++ [space]
    ++ fixedDigits 16 4 k.register.toNat

/-! ## Record rows -/

/-- "0x" and two digits for each byte of the width (R140). -/
def hexText (width : Nat) (v : Word) : List Byte :=
  codes ['0', 'x'] ++ fixedDigits 16 (2 * width) v.toNat

/-- A value in a row's format; BINARY at width 4 is written as HEX (R140). -/
def valueText (f : Format) (width : Nat) (v : Word) : List Byte :=
  match f with
  | .hex => hexText width v
  | .decimal => decimal v.toNat
  | .binary =>
    if width = 1 then fixedDigits 2 8 v.toNat
    else if width = 2 then fixedDigits 2 8 (v.toNat / 256) ++ [space] ++ fixedDigits 2 8 v.toNat
    else hexText width v

/-- The text of an absent value. -/
def dashes : List Byte := codes ['-', '-', '-', '-']

/-- The text of a record that is gone. -/
def gone : List Byte := codes ['g', 'o', 'n', 'e']

/-- The record changed within the highlight window (R141). -/
def highlighted (window epoch : Nat) (r : Record) : Bool :=
  match r.lastChange with
  | none => false
  | some e => epoch - e < window

/-- The marker of a record: the first condition that holds (R141). -/
def marker (window epoch : Nat) (r : Record) : Byte :=
  if r.mismatched then byteOf '!'.toNat
  else if r.diverged then byteOf '~'.toNat
  else if highlighted window epoch r then byteOf '*'.toNat
  else if r.unverified then byteOf '?'.toNat
  else space

/-- The five fields of a record row (R140). -/
def layoutRow (mark : Byte) (name value count : List Byte) : Line :=
  [mark] ++ padRight 12 name ++ [space] ++ padRight 20 value ++ [space] ++ padLeft 5 count

/-- The label, or the key text of a record without one (R140). -/
def Record.name (r : Record) : List Byte := r.label.getD r.key.text

/-- The value a row shows: the held view's under hold, the present one otherwise (R153). -/
def shownValue (heldView : Bool) (r : Record) : Option Word :=
  match heldView, r.held with
  | true, some (.value v) => some v
  | true, some .none => none
  | _, _ => r.value

/-- A row that shows a record (R140, R153). -/
def recordText (f : Format) (window epoch : Nat) (heldView : Bool) (r : Record) : Line :=
  layoutRow (marker window epoch r) r.name ((shownValue heldView r).elim dashes (valueText f r.width))
    (decimal r.changes)

/-- A RECORD row whose key has no record (R142). -/
def goneText (k : Key) : Line := layoutRow space k.text gone []

/-! ## Probe, watch and header lines -/

/-- A PROBE row (R143). -/
def probeText (n : Fin 16) (p : Probe) : Line :=
  layoutRow (if p.glitch then byteOf 'g'.toNat else space) (codes ['P'] ++ fixedDigits 10 2 n.val)
    (codes [if p.level then 'H' else 'L', ' '] ++ decimal p.edgesLast) []

/-- The name field of a bound WATCH row: "Wn", a space and the first 9 characters of a name (R144). -/
def watchName (n : Fin 8) (name : List Byte) : List Byte :=
  codes ['W'] ++ [digit n.val, space] ++ name.take 9

/-- A WATCH row, from its slot and the table (R144). -/
def watchText (window epoch : Nat) (table : List Record) (n : Fin 8) : Slot → Line
  | .free => layoutRow space (codes ['W'] ++ [digit n.val]) [] []
  | .armed k =>
    (lookup k table).elim blankLine fun r =>
      layoutRow (marker window epoch r) (watchName n r.name) dashes (decimal r.changes)
  | .pending k v missed _ =>
    (lookup k table).elim blankLine fun r =>
      layoutRow (marker window epoch r) (watchName n r.name)
        (hexText r.width v ++ if missed then codes ['+'] else []) (decimal r.changes)
  | .detached k _ missed _ =>
    layoutRow space (watchName n k.text) (gone ++ if missed then codes ['+'] else []) []

/-- The kind letter of a lane and the mark of its flags (R145). -/
def laneText (l : Lane) : List Byte :=
  codes [match l.cfg.kind with
    | .none => '-' | .twoWire => 'T' | .fourWire => 'F' | .management => 'M',
    if l.flags = 0 then '.' else '!']

/-- The header line, given the refresh's hold reading (R145). -/
def headerText (holdOn : Bool) (s : State) : Line :=
  (if holdOn then codes ['H', 'O', 'L', 'D'] else spaces 4) ++ [space]
    ++ fixedDigits 10 4 s.rte.table.length ++ codes ['/', '1', '0', '2', '4'] ++ [space]
    ++ (s.lanes.toList.map laneText).flatten ++ [space]
    ++ codes ['W'] ++ fixedDigits 10 2 s.wta.waitingSlots ++ spaces 13

/-- A table row of a refresh, drawn at this moment (R150, R153). -/
def tableRowText (rf : Refresh) (s : State) (i : Fin 16) (tr : TableRow) : Line :=
  let f := (rf.rows[i]).format
  match tr with
  | .record k => (lookup k s.rte.table).elim (goneText k) (recordText f rf.window s.rte.epoch rf.holdOn)
  | .auto k => (lookup k s.rte.table).elim blankLine (recordText f rf.window s.rte.epoch false)
  | .watch n => watchText rf.window s.rte.epoch s.rte.table n (s.wta.slots[n])

/-- A row that needs no lookup: PROBE, EMPTY and an AUTO row without a key (R142, R143, R150). -/
def plainRowText (s : State) (row : Row) : Line :=
  match row.binding with
  | .probe p => probeText p (s.pfe.probes[p])
  | .empty | .auto | .record _ | .watch _ => blankLine

end Sys2Proof.Machine
end

