-- ==== Sys2Proof/Machine/Panel.lean ====
section
/-! DEFINITION. The Display Engine: refresh, ranking, drawing, the panel port, panel on and off, and the view settings
(R138, R139, R146 to R157). -/

namespace Sys2Proof.Machine

/-! ## Refresh -/

/-- The rows of a snapshot with their indices, in row order. -/
def indexedRows (rows : Vector Row 16) : List (Fin 16 × Row) :=
  (Vector.ofFn fun i => (i, rows[i])).toList

/-- The rows a refresh composes: every row, or under hold the rebound ones (R153). -/
def rowsInScope (holdOn : Bool) (rows : Vector Row 16) : List (Fin 16 × Row) :=
  (indexedRows rows).filter fun x => !holdOn || x.2.rebound

/-- The table rows in row order, the AUTO rows taking the keys of the ranked list in row order (R149, R150). -/
def planRows : List (Fin 16 × Row) → List Key → List (Fin 16 × TableRow)
  | [], _ => []
  | (i, row) :: rest, keys =>
    match row.binding, keys with
    | .record k, _ => (i, .record k) :: planRows rest keys
    | .watch n, _ => (i, .watch n) :: planRows rest keys
    | .auto, k :: ks => (i, .auto k) :: planRows rest ks
    | .auto, [] => planRows rest []
    | .empty, _ => planRows rest keys
    | .probe _, _ => planRows rest keys

/-- How many rows of a snapshot are AUTO (R149). -/
def autoCount (rows : Vector Row 16) : Nat :=
  (rows.toList.filter fun r => r.binding = .auto).length

/-- The drawing phase of a refresh as it begins (R150). -/
def drawingPhase (holdOn : Bool) (rows : Vector Row 16) (keys : List Key) : RefreshPhase :=
  .drawing (planRows (rowsInScope holdOn rows) keys) []

/-- A refresh as it starts, with its snapshot of the rows, the window and the hold state (R148). -/
def newRefresh (isRepaint : Bool) (s : State) : Refresh :=
  { rows := s.dse.rows, window := s.dse.window, holdOn := s.rte.hold, isRepaint
    phase := if s.rte.hold || autoCount s.dse.rows = 0 then drawingPhase s.rte.hold s.dse.rows []
      else .ranking Key.first [] }

/-- A refresh starts (R148). -/
def startRefresh (isRepaint : Bool) (s : State) : State :=
  s.setDse { s.dse with refresh := some (newRefresh isRepaint s) }

/-- The order of the ranked list: hotter first, then later access, then lower key (R149). -/
def ranksBefore (a b : Ranked) : Bool :=
  a.heat > b.heat
    || (a.heat = b.heat && (a.access > b.access || (a.access = b.access && a.key.num < b.key.num)))

/-- A candidate placed in the ranked list (R149). -/
def insertRanked (x : Ranked) : List Ranked → List Ranked
  | [] => [x]
  | y :: ys => if ranksBefore x y then x :: y :: ys else y :: insertRanked x ys

/-- The key is the argument of a RECORD row of the snapshot (R149). -/
def isRowArgument (rows : Vector Row 16) (k : Key) : Bool :=
  rows.toList.any fun r => r.binding = .record k

/-- A record judged for the ranked list, the first `n` kept (R149). -/
def rankRecord (rows : Vector Row 16) (epoch n : Nat) (ranked : List Ranked) (r : Record) : List Ranked :=
  if 0 < decayedHeat r epoch ∧ ¬ isRowArgument rows r.key then
    (insertRanked ⟨r.key, decayedHeat r epoch, r.lastAccess⟩ ranked).take n
  else ranked

/-- The records one ranking slice takes: up to 64 at or above the ranking cursor, in key order (R149). -/
def rankingTake (table : List Record) (cursor : Key) : List Record :=
  (table.filter fun r => cursor.num ≤ r.key.num).take 64

/-- Where ranking goes on after a slice: the key after the last of 64 records, if it has one (R149). -/
def rankingNext (taken : List Record) : Option Key :=
  if taken.length = 64 then taken.getLast?.bind fun r => r.key.next else none

/-- The phase after one ranking slice (R149). -/
def rankedPhase (rf : Refresh) (s : State) (cursor : Key) (ranked : List Ranked) : RefreshPhase :=
  let taken := rankingTake s.rte.table cursor
  let ranked' := taken.foldl (rankRecord rf.rows s.rte.epoch (autoCount rf.rows)) ranked
  match rankingNext taken with
  | some k => .ranking k ranked'
  | none => drawingPhase rf.holdOn rf.rows (ranked'.map (·.key))

/-- A ranking slice is served (R149). -/
def rankingSlice (s : State) : State :=
  match s.dse.refresh with
  | none => s
  | some rf => match rf.phase with
    | .ranking cursor ranked =>
      s.setDse { s.dse with refresh := some { rf with phase := rankedPhase rf s cursor ranked } }
    | .drawing .. | .sending => s

/-- The text composed for a line, if any. -/
def composedText (n : Fin 17) (cs : List Composed) : Option Line :=
  (cs.find? fun c => c.n = n).map (·.text)

/-- The lines the last drawing slice adds: the header, and every row in scope that no slice has drawn (R150, R153). -/
def lastSliceLines (rf : Refresh) (s : State) (drawn : List Composed) : List Composed :=
  ⟨0, headerText rf.holdOn s⟩
    :: ((rowsInScope rf.holdOn rf.rows).filter fun x => (composedText x.1.succ drawn).isNone).map fun x =>
      ⟨x.1.succ, plainRowText s x.2⟩

/-- The LINE message of a line after the last slice, if it is sent (R151). -/
def lineMessage (isRepaint : Bool) (d : Dse) (cs : List Composed) (n : Fin 17) : Option PanelMessage :=
  match composedText n cs with
  | some t => if isRepaint ∨ t ≠ d.lastSent[n] then some (.line n t) else none
  | none => if isRepaint then some (.line n d.lastSent[n]) else none

/-- The line numbers 0 to 16 in order. -/
def lineNumbers : List (Fin 17) := (Vector.ofFn (n := 17) id).toList

/-- The comparison after the last drawing slice: the messages are queued, and a refresh with none ends at once (R151). -/
def queueLines (rf : Refresh) (cs : List Composed) (s : State) : State :=
  let ms := lineNumbers.filterMap (lineMessage rf.isRepaint s.dse cs)
  s.setDse { s.dse with
    port := s.dse.port ++ ms
    refresh := if ms = [] then none else some { rf with phase := .sending } }

/-- A drawing slice is served: up to four table rows, and after the last of them the rest of the lines (R150). -/
def drawingSlice (s : State) : State :=
  match s.dse.refresh with
  | none => s
  | some rf => match rf.phase with
    | .drawing todo composed =>
      let drawn := composed ++ (todo.take 4).map fun x => ⟨x.1.succ, tableRowText rf s x.1 x.2⟩
      match todo.drop 4 with
      | [] => queueLines rf (drawn ++ lastSliceLines rf s drawn) s
      | t :: ts => s.setDse { s.dse with refresh := some { rf with phase := .drawing (t :: ts) drawn } }
    | .ranking .. | .sending => s

/-- The refresh timer expires: a refresh starts unless one is in flight (R147). -/
def refreshExpiry (s : State) : State :=
  match s.dse.refreshTimer, s.dse.refresh with
  | some _, none => startRefresh false s
  | _, _ => s

/-! ## The panel port -/

/-- The bytes of a message on the panel port (R199). -/
def PanelMessage.bytes : PanelMessage → List Byte
  | .line n text => 0x01 :: byteOf n.val :: text
  | .panelOn => [0x02]
  | .panelOff => [0x03]

/-- The bytes the queued messages put on the panel port, in the order sent (R151, R199). -/
def State.portBytes (s : State) : List Byte := (s.dse.port.map PanelMessage.bytes).flatten

/-- A LINE message (R199). -/
def PanelMessage.isLine : PanelMessage → Bool
  | .line .. => true
  | .panelOn | .panelOff => false

/-- The refresh after a LINE message has left, given what is still queued: it ends with its last message (R151). -/
def refreshAfterLine (queued : List PanelMessage) (r : Option Refresh) : Option Refresh :=
  match r with
  | some rf => if rf.phase = .sending ∧ ¬ queued.any PanelMessage.isLine then none else some rf
  | none => none

/-- A LINE message has been sent whole (R151). -/
def lineSent (s : State) : State :=
  match s.dse.port with
  | .line n t :: rest =>
    s.setDse { s.dse with
      port := rest, lastSent := s.dse.lastSent.set n t, refresh := refreshAfterLine rest s.dse.refresh }
  | _ => s

/-- A PANEL-ON or PANEL-OFF message has been sent whole (R154). -/
def panelMessageSent (s : State) : State :=
  match s.dse.port with
  | .panelOn :: rest | .panelOff :: rest => s.setDse { s.dse with port := rest }
  | _ => s

/-- The queue after the LINE messages not yet begun are withdrawn; the message being sent stays (R154). -/
def withdrawLines : List PanelMessage → List PanelMessage
  | [] => []
  | sending :: queued => sending :: queued.filter fun m => !m.isLine

/-- The start-up load has completed (R155). -/
def startUpDone (s : State) : Bool :=
  match s.pim.op with
  | .load l => l.scope != .startUp
  | .none | .store _ => true

/-- The refresh period of a power state in which the panel is ON (R147). -/
def refreshPeriod : PowerState → Nat
  | .dim => 500
  | .run | .dark | .sleep => 100

/-- The panel goes OFF. Where it is OFF already nothing is queued, the entry into DARK during the start-up load included
(R154; log 27). -/
def panelTurnOff (s : State) : State :=
  if s.dse.panelOn then
    s.setDse { s.dse with
      panelOn := false, refreshTimer := none, refresh := none
      port := withdrawLines s.dse.port ++ [.panelOff] }
  else s

/-- The panel goes ON, if it was OFF and the start-up load has completed, and a repaint starts (R155). -/
def panelTurnOn (s : State) : State :=
  if s.dse.panelOn || !startUpDone s then s
  else
    startRefresh true (s.setDse { s.dse with
      panelOn := true, refreshTimer := some (refreshPeriod s.pwu.power), port := s.dse.port ++ [.panelOn] })

/-- The refresh timer takes a fresh period at a move between RUN and DIM (R147). -/
def refreshTimerMoves (p : PowerState) (s : State) : State :=
  if s.dse.panelOn then s.setDse { s.dse with refreshTimer := some (refreshPeriod p) } else s

/-! ## View settings -/

/-- A row is written; under hold its rebound mark is set (R139, R153). -/
def writeRow (i : Fin 16) (b : Binding) (f : Format) (s : State) : State :=
  s.setDse { s.dse with
    rows := modifyAt s.dse.rows i fun r => ⟨b, f, r.rebound || s.rte.hold⟩ }

/-- A row number operand, 1 to 16 (R139). -/
def rowOf (n : Nat) : Option (Fin 16) :=
  if n = 0 then none else probeOf (n - 1)

/-- VIEW-SET with its operand checks: row, binding code, format code and argument (R139). -/
def viewSet (row binding format : Nat) (argument : List Byte) (s : State) : Option State :=
  match rowOf row, bindingOf binding argument, Format.ofCode format with
  | some i, some b, some f => some (writeRow i b f s)
  | _, _, _ => none

/-- VIEW-OPTIONS: the highlight window, clamped (R146). -/
def viewOptions (window : Nat) (s : State) : State :=
  s.setDse { s.dse with window := min 15 window }

/-- PANEL-SET: the two backlight levels, clamped (R156). -/
def panelSet (runLevel dimLevel : Nat) (s : State) : State :=
  s.setDse { s.dse with runLevel := min 15 runLevel, dimLevel := min 15 dimLevel }

/-- The 7-byte row of a VIEW-SET answer, as now held (R198). -/
def rowBytes (i : Fin 16) (r : Row) : List Byte :=
  [byteOf (i.val + 1), byteOf r.binding.code, byteOf r.format.code] ++ r.binding.argument

/-! ## Hold -/

/-- The hold state takes a value. A change clears every rebound mark, and its end drops every held part (R101, R102,
R153). -/
def setHold (on : Bool) (s : State) : State :=
  if s.rte.hold = on then s
  else
    let s := s.setDse { s.dse with rows := mapAll (fun r => { r with rebound := false }) s.dse.rows }
    s.setRte { s.rte with
      hold := on, table := if on then s.rte.table else s.rte.table.map fun r => { r with held := none } }

end Sys2Proof.Machine
end

