-- ==== Sys2Proof/Machine/Lane.lean ====
section
/-! DEFINITION. What every lane does the same way (chapter 2): register assembly, the posting slot, restart, stop. -/

namespace Sys2Proof.Machine

/-- The qualified level of each probe. -/
abbrev Levels := Fin 16 → Bool

/-- The present qualified levels (R6). -/
def Pfe.levels (p : Pfe) : Levels := fun i => (p.probes[i]).level

/-! ## Register assembly and postings -/

/-- The value of a register's bytes, in bus order, under a byte order (R25). -/
def assemble (order : ByteOrder) (bytes : List Byte) : Word :=
  BitVec.ofNat 32 (beNat (match order with
    | .big => bytes
    | .little => bytes.reverse))

/-- A register address stepped by 1 within a range of `range` registers, wrapping to 0 (R26). -/
def stepRegister (range : Nat) (r : BitVec 16) : BitVec 16 :=
  if r.toNat + 1 = range then 0 else r + 1

/-- A produced posting enters the empty slot, or is lost and sets OVERRUN (R24). -/
def Lane.produce (p : Posting) (l : Lane) : Lane :=
  match l.slot with
  | none => { l with slot := some p }
  | some _ => l.setFlag .overrun

/-- The number a run of bits gives, first bit most significant. -/
def bitsNat (bits : List Bool) : Nat :=
  bits.foldl (fun n b => n * 2 + if b then 1 else 0) 0

/-! ## Selects and the entry into SEEKING -/

/-- The mapped selects of a four-wire lane (R56). -/
def LaneConfig.selects (c : LaneConfig) : List (Fin 4) :=
  [0, 1, 2, 3].filter fun s => s.val < c.selectCount

/-- A select is active while its qualified level is 0 (R56). -/
def LaneConfig.active (c : LaneConfig) (lv : Levels) (s : Fin 4) : Bool :=
  !lv (c.pins.sel[s])

/-- Some mapped select is active. -/
def LaneConfig.anyActive (c : LaneConfig) (lv : Levels) : Bool :=
  c.selects.any (c.active lv)

/-- The state of a lane that enters SEEKING: a four-wire lane with no mapped select active enters IDLE at once (R60). -/
def LaneConfig.seekingState (c : LaneConfig) (lv : Levels) : LaneState :=
  if c.kind = .fourWire ∧ ¬ c.anyActive lv then .idle else .seeking

/-! ## Restart and stop -/

/-- The lane with its decode context cleared and its pointer table emptied (R31, R36). -/
def Lane.clearContext (l : Lane) : Lane :=
  { l with two := TwoWire.cleared, four := FourWire.cleared, mgmt := Mgmt.cleared, pointers := [] }

/-- Two requests of one lane merge: a retirement if either is (R31). -/
def mergeRequest (waiting : Option LaneRequest) (new : LaneRequest) : LaneRequest :=
  if waiting = some .retirement then .retirement else new

/-- A lane restart from the present levels, raising a request (R31, R33). -/
def Lane.restart (request : LaneRequest) (lv : Levels) (l : Lane) : Lane :=
  { l.clearContext with
    slot := none
    state := if l.enabled ∧ l.cfg.kind ≠ .none then l.cfg.seekingState lv else .off
    request := some (mergeRequest l.request request) }

/-- A lane at the moment sleep entry begins: everything but the posting in its slot is discarded, and a lane that is not OFF
enters SEEKING and judges its selects (R36, R60, R71). -/
def Lane.stop (lv : Levels) (l : Lane) : Lane :=
  { l.clearContext with state := if l.state = .off then .off else l.cfg.seekingState lv }

/-- Every enabled lane is restarted (R31, R36). -/
def restartEnabled (s : State) : State :=
  s.setLanes (mapAll (fun l => if l.enabled then l.restart .marking s.pfe.levels else l) s.lanes)

/-- Lane `i` changed and then restarted (R20, R21). -/
def restartLane (i : Fin 4) (request : LaneRequest) (f : Lane → Lane) (s : State) : State :=
  s.setLanes (modifyAt s.lanes i fun l => (f l).restart request s.pfe.levels)

/-- The lanes read no edge: sleep entry is in flight, or the part is in SLEEP (R36, R165). -/
def lanesStopped (s : State) : Bool :=
  s.pwu.op = .sleepEntry || s.pwu.power = .sleep

/-- What one change of a lane's inputs leaves: the lane, and whether it completed a frame (R35). -/
structure Decoded where
  lane : Lane
  completed : Bool
  deriving DecidableEq, Repr

/-- A change that completes no frame. -/
def Decoded.quiet (l : Lane) : Decoded := ⟨l, false⟩

end Sys2Proof.Machine
end

