-- ==== Sys2Proof/Machine/TwoWire.lean ====
section
/-! DEFINITION. Two-wire lanes (chapter 3). -/

namespace Sys2Proof.Machine

/-! ## The pointer table -/

/-- The pointer of a target's entry (R47). -/
def pointerOf (t : BitVec 10) (ptrs : List (BitVec 10 × BitVec 16)) : Option (BitVec 16) :=
  (ptrs.find? fun e => e.1 = t).map (·.2)

/-- An entry set or replaced and moved first, the least recently used entry dropped from a full table (R48). -/
def setPointer (t : BitVec 10) (p : BitVec 16) (ptrs : List (BitVec 10 × BitVec 16)) :
    List (BitVec 10 × BitVec 16) :=
  (t, p) :: (ptrs.filter fun e => e.1 ≠ t).take (Config.pointerCapacity - 1)

/-- A target's pointer stepped by 1, the order unchanged (R47). -/
def stepPointer (range : Nat) (t : BitVec 10) (ptrs : List (BitVec 10 × BitVec 16)) :
    List (BitVec 10 × BitVec 16) :=
  ptrs.map fun e => if e.1 = t then (e.1, stepRegister range e.2) else e

/-! ## Transfers and frames -/

/-- The lane with its transfer in another phase, at a byte boundary. -/
def Lane.twoPhase (ph : TwoPhase) (l : Lane) : Lane :=
  { l with two := { l.two with phase := ph } }

/-- A transfer opens (R42). -/
def Lane.openTransfer (l : Lane) : Lane :=
  { l with two := { l.two with bits := [], sample := none, phase := .address } }

/-- A transfer ends, by a repeated start or a stop (R54, R55). -/
def Lane.endTransfer (l : Lane) : Lane :=
  match l.two.phase, l.two.bits with
  | .ignore (some (_ :: _)), _ => l.setFlag .partialRegister
  | .ignore _, _ => l
  | _, _ :: _ => l.setFlag .busError
  | .data _ _ (_ :: _), [] => l.setFlag .partialRegister
  | _, [] => l

/-- A start condition (R41, R42). -/
def Lane.startCondition (l : Lane) : Lane :=
  match l.state with
  | .off => l
  | .seeking | .idle => { l with state := .inFrame, two := TwoWire.cleared }
  | .inFrame => l.endTransfer.openTransfer

/-- A stop condition (R41). -/
def Lane.stopCondition (l : Lane) : Decoded :=
  match l.state with
  | .off | .idle => .quiet l
  | .seeking => .quiet { l with state := .idle }
  | .inFrame => ⟨{ l.endTransfer with state := .idle, two := TwoWire.cleared }, true⟩

/-! ## Bytes -/

/-- A read transfer to a target begins: its entry is moved first and data follow, or UNKNOWN-POINTER is set (R52, R53). -/
def Lane.beginRead (t : BitVec 10) (l : Lane) : Lane :=
  match pointerOf t l.pointers with
  | some p => { l.twoPhase (.data t .read []) with pointers := setPointer t p l.pointers }
  | none => (l.setFlag .unknownPointer).twoPhase (.ignore none)

/-- The address byte completes (R44, R46). -/
def Lane.addressByte (b : Byte) (ack : Bool) (l : Lane) : Lane :=
  let read := b.getLsbD 0
  let address := b.extractLsb' 1 7
  let high := b.extractLsb' 1 2
  if address = 0 then l.twoPhase (.ignore none)
  else if !ack then l.twoPhase (.ignore none)
  else if b.extractLsb' 3 5 = 0x1E#5 ∧ l.cfg.tenBit then
    if read then
      match l.two.frameTarget with
      | some t => if t.extractLsb' 8 2 = high then l.beginRead t else l.twoPhase (.ignore none)
      | none => l.twoPhase (.ignore none)
    else l.twoPhase (.addressLow high)
  else if read then l.beginRead (address.setWidth 10)
  else l.twoPhase (.pointer (address.setWidth 10) [])

/-- The second byte of a ten-bit address completes (R45). -/
def Lane.addressLowByte (high : BitVec 2) (b : Byte) (ack : Bool) (l : Lane) : Lane :=
  if ack then
    { l with two := { l.two with frameTarget := some (high ++ b), phase := .pointer (high ++ b) [] } }
  else l.twoPhase (.ignore none)

/-- A pointer byte completes (R49). -/
def Lane.pointerByte (t : BitVec 10) (collected : List Byte) (b : Byte) (ack : Bool) (l : Lane) : Lane :=
  if ack then
    if (collected ++ [b]).length = l.cfg.a then
      { l.twoPhase (.data t .write []) with
        pointers := setPointer t (BitVec.ofNat 16 (beNat (collected ++ [b]))) l.pointers }
    else l.twoPhase (.pointer t (collected ++ [b]))
  else (l.setFlag .refusedByte).twoPhase (.ignore none)

/-- A register of a transfer completes: its posting at the entry's pointer, and the step of the pointer (R50, R52). -/
def Lane.postAtPointer (i : Fin 4) (t : BitVec 10) (dir : Dir) (register : List Byte) (l : Lane) : Lane :=
  let p := (pointerOf t l.pointers).getD 0
  let l := l.produce ⟨⟨i, t, p⟩, dir, assemble l.cfg.byteOrder register, l.cfg.w⟩
  { l with pointers := stepPointer (2 ^ (8 * l.cfg.a)) t l.pointers }

/-- A data byte joins the register in progress; the W-th byte completes it (R50, R52). -/
def Lane.joinByte (i : Fin 4) (t : BitVec 10) (dir : Dir) (register : List Byte) (b : Byte) (l : Lane) : Lane :=
  if (register ++ [b]).length = l.cfg.w then
    (l.postAtPointer i t dir (register ++ [b])).twoPhase (.data t dir [])
  else l.twoPhase (.data t dir (register ++ [b]))

/-- After a controller NACK the transfer is ignored, its register in progress kept (R52). -/
def Lane.controllerNack (l : Lane) : Lane :=
  match l.two.phase with
  | .data _ _ register => l.twoPhase (.ignore (some register))
  | _ => l

/-- A data byte completes (R50, R51, R52). -/
def Lane.dataByte (i : Fin 4) (t : BitVec 10) (dir : Dir) (register : List Byte) (b : Byte) (ack : Bool)
    (l : Lane) : Lane :=
  match dir with
  | .write =>
    if ack then l.joinByte i t .write register b
    else (l.setFlag .refusedByte).twoPhase (.ignore none)
  | .read =>
    if ack then l.joinByte i t .read register b
    else (l.joinByte i t .read register b).controllerNack

/-- A byte is complete: what the lane does with it depends on the phase (R40). -/
def Lane.twoByte (i : Fin 4) (b : Byte) (ack : Bool) (l : Lane) : Lane :=
  match l.two.phase with
  | .address => l.addressByte b ack
  | .addressLow high => l.addressLowByte high b ack
  | .pointer t collected => l.pointerByte t collected b ack
  | .data t dir register => l.dataByte i t dir register b ack
  | .ignore _ => l

/-- A bit is taken; the ninth completes the byte cell (R38, R40). -/
def Lane.twoBit (i : Fin 4) (b : Bool) (l : Lane) : Lane :=
  if l.two.bits.length = 8 then
    { l with two := { l.two with bits := [] } }.twoByte i (byteOf (bitsNat l.two.bits)) (!b)
  else { l with two := { l.two with bits := l.two.bits ++ [b] } }

/-- The transfer is being decoded: the lane is IN-FRAME in a phase other than IGNORE (R38, R43). -/
def Lane.decodesTransfer (l : Lane) : Bool :=
  l.state = .inFrame && (match l.two.phase with
    | .ignore _ => false
    | _ => true)

/-- One change of a two-wire lane's inputs (R38, R39, R41). -/
def twoWireChange (i : Fin 4) (before after : Levels) (l : Lane) : Decoded :=
  let c := before l.cfg.pins.twoClock
  let c' := after l.cfg.pins.twoClock
  let d := before l.cfg.pins.twoData
  let d' := after l.cfg.pins.twoData
  if !c && c' then
    .quiet (if l.decodesTransfer then { l with two := { l.two with sample := some d' } } else l)
  else if c && !c' then
    match l.two.sample with
    | some b => .quiet ({ l with two := { l.two with sample := none } }.twoBit i b)
    | none => .quiet l
  else if c && d && !d' then .quiet l.startCondition
  else if c && !d && d' then l.stopCondition
  else .quiet l

end Sys2Proof.Machine
end

