-- ==== Sys2Proof/Machine/FourWire.lean ====
section
/-! DEFINITION. Four-wire lanes (chapter 4). -/

namespace Sys2Proof.Machine

/-- The idle level of a clock mode (R57). -/
def idleLevel (mode : Nat) : Bool := mode = 2 || mode = 3

/-- The sampling edge of a clock mode is the rising one (R57). -/
def samplesRising (mode : Nat) : Bool := mode = 0 || mode = 3

/-- The registers of a four-wire lane's range (R26). -/
def fourRange (c : LaneConfig) : Nat :=
  2 ^ (8 * c.a - (if c.autoinc = .flag then 2 else 1))

/-- What a command value names (R62). -/
def accessOf (c : LaneConfig) (command : Nat) : Access :=
  let top := command.testBit (8 * c.a - 1)
  { dir := if top == (c.polarity == .readIsOne) then .read else .write
    increment := c.autoinc = .flag && command.testBit (8 * c.a - 2)
    register := BitVec.ofNat 16 (command % fourRange c) }

/-- The register address after a register completes (R63). -/
def stepAccess (c : LaneConfig) (a : Access) : Access :=
  if c.autoinc = .always ∨ (c.autoinc = .flag ∧ a.increment) then
    { a with register := stepRegister (fourRange c) a.register }
  else a

/-- The lane with its frame in another phase. -/
def Lane.fourPhase (ph : FourPhase) (l : Lane) : Lane :=
  { l with four := { l.four with phase := ph } }

/-- The phase after the A-th command byte (R62). -/
def afterCommand (c : LaneConfig) (a : Access) : FourPhase :=
  if a.dir = .read ∧ c.latency ≠ 0 then .latency a 0 else .data a []

/-- A byte joins the register in progress; the W-th byte completes it (R65, R66). -/
def Lane.fourDataByte (i : Fin 4) (a : Access) (register : List Byte) (b : Byte) (l : Lane) : Lane :=
  if (register ++ [b]).length = l.cfg.w then
    let l := l.produce
      ⟨⟨i, BitVec.ofNat 10 l.four.target.val, a.register⟩, a.dir, assemble l.cfg.byteOrder (register ++ [b]), l.cfg.w⟩
    l.fourPhase (.data (stepAccess l.cfg a) [])
  else l.fourPhase (.data a (register ++ [b]))

/-- Both bytes of a byte cell complete: `cb` from CDAT, `tb` from TDAT (R62, R64, R65, R66). -/
def Lane.fourByte (i : Fin 4) (cb tb : Byte) (l : Lane) : Lane :=
  match l.four.phase with
  | .command collected =>
    if (collected ++ [cb]).length = l.cfg.a then
      l.fourPhase (afterCommand l.cfg (accessOf l.cfg (beNat (collected ++ [cb]))))
    else l.fourPhase (.command (collected ++ [cb]))
  | .latency a skipped =>
    if skipped + 1 = l.cfg.latency then l.fourPhase (.data a []) else l.fourPhase (.latency a (skipped + 1))
  | .data a register =>
    l.fourDataByte i a register (match a.dir with
      | .write => cb
      | .read => tb)
  | .contended => l

/-- Eight bits as a byte under a bit order (R58). -/
def fourByteOf (order : BitOrder) (bits : List Bool) : Byte :=
  byteOf (bitsNat (match order with
    | .msbFirst => bits
    | .lsbFirst => bits.reverse))

/-- One bit is taken from each data role (R58). -/
def Lane.fourBit (i : Fin 4) (cd td : Bool) (l : Lane) : Lane :=
  let cs := l.four.cBits ++ [cd]
  let ts := l.four.tBits ++ [td]
  if cs.length = 8 then
    { l with four := { l.four with cBits := [], tBits := [] } }.fourByte i (fourByteOf l.cfg.bitOrder cs)
      (fourByteOf l.cfg.bitOrder ts)
  else { l with four := { l.four with cBits := cs, tBits := ts } }

/-- A frame is open in COMMAND, LATENCY or DATA, where it takes bits; CONTENDED takes none (R57, R69). -/
def Lane.takesBits (l : Lane) : Bool :=
  l.state = .inFrame && l.four.phase != .contended

/-- Step 1 of R59: a sampling edge takes one bit of an open and armed frame, the data roles read before the change. -/
def Lane.fourSample (i : Fin 4) (before after : Levels) (l : Lane) : Lane :=
  let c := before l.cfg.pins.fourClock
  let c' := after l.cfg.pins.fourClock
  if l.takesBits ∧ l.four.armed ∧ c ≠ c' ∧ c' = samplesRising l.cfg.clockMode then
    l.fourBit i (before l.cfg.pins.cdat) (before l.cfg.pins.tdat)
  else l

/-- Step 2 of R59: an open frame becomes armed at the idle level. -/
def Lane.fourArm (after : Levels) (l : Lane) : Lane :=
  if l.state = .inFrame ∧ after l.cfg.pins.fourClock = idleLevel l.cfg.clockMode then
    { l with four := { l.four with armed := true } }
  else l

/-- What the release of a frame's select finds (R67). -/
def Lane.judgeFrame (l : Lane) : Lane :=
  match l.four.phase, l.four.cBits with
  | .latency .., _ :: _ => l.setFlag .framing
  | .data .., _ :: _ => l.setFlag .framing
  | .data _ (_ :: _), [] => l.setFlag .partialRegister
  | _, _ => l

/-- The frame closes and the lane enters IDLE with its context cleared (R67, R69). -/
def Lane.closeFour (l : Lane) : Decoded :=
  ⟨{ l.judgeFrame with state := .idle, four := FourWire.cleared }, true⟩

/-- The change makes some mapped select inactive. -/
def someReleased (c : LaneConfig) (before after : Levels) : Bool :=
  c.selects.any fun s => c.active before s && !c.active after s

/-- The change makes some mapped select active. -/
def someActivated (c : LaneConfig) (before after : Levels) : Bool :=
  c.selects.any fun s => !c.active before s && c.active after s

/-- Some mapped select was active before the change and the change did not release it. -/
def someKept (c : LaneConfig) (before after : Levels) : Bool :=
  c.selects.any fun s => c.active before s && c.active after s

/-- Step 3 of R59: releases (R60, R67, R69). -/
def Lane.fourReleases (before after : Levels) (l : Lane) : Decoded :=
  match l.state with
  | .off | .idle => .quiet l
  | .seeking =>
    if someReleased l.cfg before after ∧ ¬ someKept l.cfg before after then .quiet { l with state := .idle }
    else .quiet l
  | .inFrame =>
    if l.four.phase = .contended then
      if someReleased l.cfg before after ∧ ¬ someKept l.cfg before after then l.closeFour else .quiet l
    else if l.cfg.active before l.four.target ∧ ¬ l.cfg.active after l.four.target then l.closeFour
    else .quiet l

/-- A frame opens on a select (R61). -/
def Lane.openFour (sel : Fin 4) (armed : Bool) (l : Lane) : Lane :=
  { l with state := .inFrame, four := { FourWire.cleared with target := sel, armed } }

/-- The frame becomes CONTENDED and everything in progress is discarded; the armed mark is the frame's own (R57, R68). -/
def Lane.contend (armed : Bool) (l : Lane) : Lane :=
  { l.setFlag .contention with
    state := .inFrame, four := { FourWire.cleared with armed, target := l.four.target, phase := .contended } }

/-- Step 4 of R59: activations (R60, R61, R68). -/
def Lane.fourActivations (before after : Levels) (l : Lane) : Lane :=
  if someActivated l.cfg before after then
    match l.state with
    | .off | .seeking => l
    | .idle =>
      match l.cfg.selects.filter (l.cfg.active after) with
      | [sel] => l.openFour sel (after l.cfg.pins.fourClock = idleLevel l.cfg.clockMode)
      | _ => l.contend (after l.cfg.pins.fourClock = idleLevel l.cfg.clockMode)
    | .inFrame => if l.four.phase = .contended then l else l.contend l.four.armed
  else l

/-- One change of a four-wire lane's inputs, read in the four steps of R59. -/
def fourWireChange (i : Fin 4) (before after : Levels) (l : Lane) : Decoded :=
  let r := ((l.fourSample i before after).fourArm after).fourReleases before after
  ⟨r.lane.fourActivations before after, r.completed⟩

end Sys2Proof.Machine
end

