-- ==== Sys2Proof/Machine/Management.lean ====
section
/-! DEFINITION. Management lanes (chapter 5), and the reading of one change of levels by a lane of any kind (R6, R22). -/

namespace Sys2Proof.Machine

/-- The required run: the minimum preamble, or 1 when that is 0 (R73). -/
def requiredRun (c : LaneConfig) : Nat := max 1 c.preamble

/-- The run count raised by a 1 bit, saturating at 32 (R73). -/
def runUp (run : Nat) : Nat := min 32 (run + 1)

/-- A bit in SEEKING (R73). -/
def Lane.mgmtSeek (b : Bool) (l : Lane) : Lane :=
  if b then
    { l with
      mgmt := { l.mgmt with run := runUp l.mgmt.run }
      state := if requiredRun l.cfg ≤ runUp l.mgmt.run then .idle else .seeking }
  else { l with mgmt := { l.mgmt with run := 0 } }

/-- The lane enters SEEKING with run count 0 and start mark clear (R73). -/
def Lane.mgmtResync (l : Lane) : Lane :=
  { l with state := .seeking, mgmt := Mgmt.cleared }

/-- A bit in IDLE (R74, R75). -/
def Lane.mgmtIdle (b : Bool) (l : Lane) : Lane :=
  match l.mgmt.startMark, b with
  | false, true => { l with mgmt := { l.mgmt with run := runUp l.mgmt.run } }
  | false, false =>
    if requiredRun l.cfg ≤ l.mgmt.run then { l with mgmt := { l.mgmt with startMark := true } } else l.mgmtResync
  | true, true => { l with state := .inFrame, mgmt := Mgmt.cleared }
  | true, false => l.mgmtResync

/-- The frame moves to another phase. -/
def Lane.mgmtPhase (ph : MgmtPhase) (l : Lane) : Lane :=
  { l with mgmt := { l.mgmt with phase := ph } }

/-- The operation bits judged (R76). -/
def Lane.mgmtOperation (bits : List Bool) (l : Lane) : Decoded :=
  match bits with
  | [true, false] => .quiet (l.mgmtPhase (.device .read []))
  | [false, true] => .quiet (l.mgmtPhase (.device .write []))
  | _ => ⟨(l.setFlag .unsupported).mgmtResync, true⟩

/-- The turnaround bits judged (R78). -/
def Lane.mgmtTurnaround (dir : Dir) (device register : Nat) (bits : List Bool) (l : Lane) : Decoded :=
  match dir, bits with
  | .read, [_, true] => ⟨(l.setFlag .noResponse).mgmtResync, true⟩
  | _, _ => .quiet (l.mgmtPhase (.data dir device register []))

/-- The two bytes of sixteen data bits, first eight bits first (R79). -/
def mgmtBytes (bits : List Bool) : List Byte :=
  [byteOf (bitsNat (bits.take 8)), byteOf (bitsNat (bits.drop 8))]

/-- The sixteenth data bit: the posting, and the close of the frame (R79, R80). -/
def Lane.mgmtClose (i : Fin 4) (dir : Dir) (device register : Nat) (bits : List Bool) (l : Lane) : Decoded :=
  let l := l.produce
    ⟨⟨i, BitVec.ofNat 10 device, BitVec.ofNat 16 register⟩, dir, assemble l.cfg.byteOrder (mgmtBytes bits), 2⟩
  ⟨{ l with state := .idle, mgmt := Mgmt.cleared }, true⟩

/-- A bit of an open frame (R75 to R80). -/
def Lane.mgmtFrame (i : Fin 4) (b : Bool) (l : Lane) : Decoded :=
  match l.mgmt.phase with
  | .operation bits =>
    if (bits ++ [b]).length = 2 then l.mgmtOperation (bits ++ [b])
    else .quiet (l.mgmtPhase (.operation (bits ++ [b])))
  | .device dir bits =>
    if (bits ++ [b]).length = 5 then .quiet (l.mgmtPhase (.register dir (bitsNat (bits ++ [b])) []))
    else .quiet (l.mgmtPhase (.device dir (bits ++ [b])))
  | .register dir device bits =>
    if (bits ++ [b]).length = 5 then .quiet (l.mgmtPhase (.turnaround dir device (bitsNat (bits ++ [b])) []))
    else .quiet (l.mgmtPhase (.register dir device (bits ++ [b])))
  | .turnaround dir device register bits =>
    if (bits ++ [b]).length = 2 then l.mgmtTurnaround dir device register (bits ++ [b])
    else .quiet (l.mgmtPhase (.turnaround dir device register (bits ++ [b])))
  | .data dir device register bits =>
    if (bits ++ [b]).length = 16 then l.mgmtClose i dir device register (bits ++ [b])
    else .quiet (l.mgmtPhase (.data dir device register (bits ++ [b])))

/-- A bit is taken (R72). -/
def Lane.mgmtBit (i : Fin 4) (b : Bool) (l : Lane) : Decoded :=
  match l.state with
  | .off => .quiet l
  | .seeking => .quiet (l.mgmtSeek b)
  | .idle => .quiet (l.mgmtIdle b)
  | .inFrame => l.mgmtFrame i b

/-- One change of a management lane's inputs: a rising clock edge takes one bit at the data level held before (R72). -/
def managementChange (i : Fin 4) (before after : Levels) (l : Lane) : Decoded :=
  if !before l.cfg.pins.mgmtClock && after l.cfg.pins.mgmtClock then l.mgmtBit i (before l.cfg.pins.mgmtData)
  else .quiet l

/-- One change of levels as a lane reads it (R6). In OFF every edge is disregarded (R22). -/
def laneChange (i : Fin 4) (before after : Levels) (l : Lane) : Decoded :=
  if l.state = .off then .quiet l
  else match l.cfg.kind with
    | .none => .quiet l
    | .twoWire => twoWireChange i before after l
    | .fourWire => fourWireChange i before after l
    | .management => managementChange i before after l

end Sys2Proof.Machine
end

