-- ==== Sys2Proof/Machine/Power.lean ====
section
/-! DEFINITION. The Power and Wake Unit: the chain, activity, sleep entry, wake events and the hold key (chapter 9), with
the epoch timer (R86). -/

namespace Sys2Proof.Machine

/-! ## The chain -/

/-- A chain timer as it starts with its full setting; a timer whose setting is 0 does not run (R159). -/
def startTimer (t : ChainTimer) (setting : Nat) : Option (ChainTimer × Nat) :=
  if setting = 0 then none else some (t, setting)

/-- The chain timer running is `t` (R159). -/
def timerRuns (t : ChainTimer) (s : State) : Bool :=
  match s.pwu.timer with
  | some (t', _) => t' = t
  | none => false

/-- The part enters RUN: no operation is in flight, the dim timer starts afresh and no expiry is deferred (R159, R160). -/
def Pwu.toRun (p : Pwu) : Pwu :=
  { p with power := .run, op := .none, timer := startTimer .dim p.dim, deferred := false }

/-- Sleep entry is aborted (R164). -/
def abortSleepEntry (s : State) : State :=
  if s.pwu.op = .sleepEntry then panelTurnOn (restartEnabled (s.setPwu s.pwu.toRun)) else s

/-- An activity event (R160). It cannot arise in SLEEP or during wake. -/
def activity (s : State) : State :=
  if s.pwu.op = .sleepEntry then abortSleepEntry s
  else match s.pwu.power with
    | .run => s.setPwu s.pwu.toRun
    | .dim => refreshTimerMoves .run (s.setPwu s.pwu.toRun)
    | .dark => panelTurnOn (s.setPwu s.pwu.toRun)
    | .sleep => s

/-- An activity event where a setting asks for one. -/
def activityIf (b : Bool) (s : State) : State :=
  if b then activity s else s

/-- The dim timer expires (R158, R159). -/
def dimExpiry (s : State) : State :=
  if s.pwu.power = .run ∧ timerRuns .dim s then
    refreshTimerMoves .dim (s.setPwu { s.pwu with power := .dim, timer := startTimer .dark s.pwu.dark })
  else s

/-- The dark timer expires (R158, R159). -/
def darkExpiry (s : State) : State :=
  if s.pwu.power = .dim ∧ timerRuns .dark s then
    panelTurnOff (s.setPwu { s.pwu with power := .dark, timer := startTimer .sleep s.pwu.sleep })
  else s

/-! ## Sleep entry -/

/-- Sleep entry begins (R162). -/
def beginSleepEntry (s : State) : State :=
  if s.pwu.op = .none ∧ s.pwu.power ≠ .sleep then
    let s := s.setPwu { s.pwu with power := .dark, op := .sleepEntry, timer := none, deferred := false }
    panelTurnOff (s.setLanes (mapAll (Lane.stop s.pfe.levels) s.lanes))
  else s

/-- A profile operation is in flight (R187). -/
def profileBusy (s : State) : Bool := s.pim.op != .none

/-- The sleep timer expires: sleep entry, or the deferred mark while a profile operation is in flight (R159). -/
def sleepExpiry (s : State) : State :=
  if s.pwu.power = .dark ∧ timerRuns .sleep s then
    if profileBusy s then s.setPwu { s.pwu with timer := none, deferred := true } else beginSleepEntry s
  else s

/-- A deferred sleep-timer expiry begins sleep entry as the profile operation completes (R159, R187). -/
def takeDeferred (s : State) : State :=
  if s.pwu.deferred then beginSleepEntry (s.setPwu { s.pwu with deferred := false }) else s

/-! ## Wake events -/

/-- A source of wake (R166). -/
inductive WakeSource where
  | probe (p : Fin 16)
  | holdkey
  | lsel
  deriving DecidableEq, Repr

/-- The wake pending set with a source added (R166). -/
def WakeSet.add (src : WakeSource) (w : WakeSet) : WakeSet :=
  match src with
  | .probe p => { w with probes := w.probes ||| (1 <<< p.val) }
  | .holdkey => { w with holdkey := true }
  | .lsel => { w with lsel := true }

/-- The wake pending set without the members a note names (R169). -/
def WakeSet.minus (w note : WakeSet) : WakeSet :=
  ⟨w.probes &&& ~~~note.probes, w.holdkey && !note.holdkey, w.lsel && !note.lsel⟩

/-- A wake event: its source joins the set, and the first one in SLEEP begins wake (R166). -/
def wakeEvent (src : WakeSource) (s : State) : State :=
  if s.pwu.power = .sleep then
    s.setPwu { s.pwu with op := .wake, wakePending := s.pwu.wakePending.add src }
  else s

/-- The direction of a wake-side edge matches a wake edge setting (R14). -/
def WakeEdge.matches (e : WakeEdge) (level : Bool) : Bool :=
  match e with
  | .none => false
  | .rising => level
  | .falling => !level
  | .either => true

/-! ## The hold key -/

/-- The HOLDKEY input takes a level: a candidate is started or discarded (R161). -/
def Pwu.keyInput (low : Bool) (p : Pwu) : Pwu :=
  { p with
    keyLow := low
    keyCandidate :=
      if low = p.keyPressed then none
      else match p.keyCandidate with
        | some c => some c
        | none => some ⟨low, false⟩ }

/-- A HOLDKEY press event: hold toggles and HOLD is raised; while key activity is yes it is an activity event, taken
after the toggle (R101, R161; log 16). -/
def pressEvent (s : State) : State :=
  activityIf s.pwu.keyActivity (raise .hold (setHold (!s.rte.hold) s))

/-- A key press by where the part stands (R161). -/
def keyPress (s : State) : State :=
  if s.pwu.power = .sleep then (if s.pwu.holdkeyWake then wakeEvent .holdkey s else s) else pressEvent s

/-- The HOLDKEY input has stood at the candidate level for 20 ms (R161). -/
def debounce (s : State) : State :=
  match s.pwu.keyCandidate with
  | none => s
  | some c =>
    let s := s.setPwu { s.pwu with keyPressed := c.pressed, keyCandidate := none }
    if c.pressed && !c.fromReset then keyPress s else s

/-! ## Epochs -/

/-- A probe's edge counts at an epoch expiry (R7). -/
def Probe.rollOver (p : Probe) : Probe :=
  { p with edgesLast := p.edgesNow, edgesNow := 0 }

/-- The epoch timer expires (R7, R86). -/
def epochExpiry (s : State) : State :=
  if s.rte.epochTimer then
    (s.setRte { s.rte with epoch := min Config.epochMax (s.rte.epoch + 1) }).setPfe
      { s.pfe with probes := mapAll Probe.rollOver s.pfe.probes }
  else s

/-! ## Power settings -/

/-- POWER-SET's settings are written; a timer already running runs out its present period (R168). -/
def Pwu.apply (x : PowerSettings) (p : Pwu) : Pwu :=
  { p with
    dim := x.dim, dark := x.dark, sleep := x.sleep, wakeEdges := x.edges, holdkeyWake := x.holdkeyWake
    keyActivity := x.keyActivity, linkActivity := x.linkActivity }

/-- POWER-SET with its operand checks (R168). -/
def powerSet (ops : List Byte) (s : State) : Option State :=
  (parsePower ops).map fun x => s.setPwu (s.pwu.apply x)

end Sys2Proof.Machine
end

