-- ==== Sys2Proof/Machine/Probe.lean ====
section
/-! DEFINITION. The Probe Front End: comparators, the glitch filter, qualified edges and their offer to the lanes, the wake
comparators, bank settings and PROBE-READ (chapter 1). -/

namespace Sys2Proof.Machine

/-! ## Comparators and the filter -/

/-- The bank of a probe (1.1). -/
def bankOf (p : Fin 16) : Fin 2 := if p.val < 8 then 0 else 1

/-- The settings of a probe's bank. -/
def Pfe.bank (x : Pfe) (p : Fin 16) : Bank := x.banks[bankOf p]

/-- A probe's raw level: 1 while its pin is at or above the bank threshold of 20 mV times the code (R1, R2). -/
def Pfe.raw (x : Pfe) (p : Fin 16) : Bool := 20 * (x.bank p).code ≤ x.pins[p]

/-- What the filter of R3 does with the raw level. -/
inductive Filtered where
  /-- Nothing to do: the raw level agrees, or the candidate runs on. -/
  | same
  /-- A candidate is started. -/
  | starts (c : Candidate)
  /-- The candidate is rejected. -/
  | rejects
  /-- With glitch width 0 the change is qualified at once. -/
  | qualifies
  deriving DecidableEq, Repr

/-- The filter's judgement of the raw level against a qualified level and the candidate held (R3, R4, R10). -/
def filter (width : Nat) (raw level : Bool) (held : Option Candidate) : Filtered :=
  match held with
  | none => if raw = level then .same else if width = 0 then .qualifies else .starts ⟨raw, width⟩
  | some _ => if raw = level then .rejects else .same

/-- A qualified edge in the probe's record (R5). -/
def Probe.edge (level : Bool) (p : Probe) : Probe :=
  { p with level, edgesNow := countUp p.edgesNow, candidate := none }

/-- A rejection: the glitch mark is set and a clear note withdrawn (R8, R12). -/
def Probe.reject (p : Probe) : Probe :=
  { p with candidate := none, glitch := true, clearNote := false }

/-- A probe after the filter has seen its raw level (R3). -/
def Probe.filtered (width : Nat) (raw : Bool) (p : Probe) : Probe :=
  match filter width raw p.level p.candidate with
  | .same => p
  | .starts c => { p with candidate := some c }
  | .rejects => p.reject
  | .qualifies => p.edge raw

/-- The Probe Front End after the filters of the probes `which` picks have seen their raw levels (R3, R10). -/
def Pfe.filterWhere (which : Fin 16 → Bool) (x : Pfe) : Pfe :=
  { x with probes := Vector.ofFn fun i =>
      if which i then (x.probes[i]).filtered (x.bank i).width (x.raw i) else x.probes[i] }

/-! ## Qualified edges and the lanes -/

/-- What a lane leaves behind in the rest of the part: LANE at a flag's transition (R29), and the activity event of a
completed frame on an activity source (R35). -/
def laneEffects (before : Lane) (d : Decoded) (s : State) : State :=
  activityIf (d.completed && d.lane.cfg.activity) (raiseIf (flagRose before.flags d.lane.flags) .lane s)

/-- One lane reads a change of the qualified levels (R6). -/
def offerTo (before after : Levels) (s : State) (i : Fin 4) : State :=
  let l := s.lanes[i]
  let d := laneChange i before after l
  laneEffects l d (s.setLane i d.lane)

/-- The qualified levels change: each lane reads the change as one, unless the lanes are stopped (R6, R36). -/
def offer (before : Levels) (s : State) : State :=
  if lanesStopped s then s else [0, 1, 2, 3].foldl (offerTo before s.pfe.levels) s

/-- The Probe Front End moves on, and the edges it has qualified are offered to the lanes together (R6). The lanes read the
levels before and after: a probe that has two edges in the move counts both and shows the lanes neither, the model's choice
(log 32). -/
def movePfe (x : Pfe) (s : State) : State :=
  offer s.pfe.levels (s.setPfe x)

/-- A probe whose candidate, if it holds one, becomes a qualified edge (R3, R5). -/
def Probe.qualified (p : Probe) : Probe :=
  p.candidate.elim p fun c => p.edge c.level

/-- The Probe Front End with the candidates of some probes qualified (R3, R5). -/
def Pfe.qualify (probes : List (Fin 16)) (x : Pfe) : Pfe :=
  { x with probes := Vector.ofFn fun i => if i ∈ probes then (x.probes[i]).qualified else x.probes[i] }

/-- The candidates of some probes become qualified edges at one moment (R3, R5), which may be that of the next bank change
(R6; log 26). -/
def qualify (e : DueEdges) (s : State) : State :=
  if s.pwu.power = .sleep then s
  else if e.withBank then s.setPfe { s.pfe with due := e.probes }
  else movePfe (s.pfe.qualify e.probes) s

/-! ## Wake comparators -/

/-- A wake comparator after its filter has seen the raw level, and the edge it reports at once with glitch width 0
(R14). -/
def WakeComparator.filtered (width : Nat) (raw : Bool) (w : WakeComparator) : WakeComparator × Option Bool :=
  match filter width raw w.ref w.candidate with
  | .same => (w, none)
  | .starts c => ({ w with candidate := some c }, none)
  | .rejects => ({ w with candidate := none }, none)
  | .qualifies => (⟨raw, none⟩, some raw)

/-- A qualified wake-side edge of a probe: a wake event when its direction is the configured one (R14, R166). -/
def wakeEdgeAt (p : Fin 16) (level : Bool) (s : State) : State :=
  if (s.pwu.wakeEdges[p]).matches level then wakeEvent (.probe p) s else s

/-- A probe's wake comparator sees its raw level (R14). -/
def wakeFilterAt (s : State) (p : Fin 16) : State :=
  match (s.pfe.probes[p]).wake with
  | none => s
  | some w =>
    let r := w.filtered (s.pfe.bank p).width (s.pfe.raw p)
    let s := s.setPfe { s.pfe with probes := modifyAt s.pfe.probes p fun x => { x with wake := some r.1 } }
    r.2.elim s fun level => wakeEdgeAt p level s

/-- The sixteen probes in order. -/
def probeNumbers : List (Fin 16) := (Vector.ofFn (n := 16) id).toList

/-- The wake comparators of some probes see their raw levels. -/
def wakeFilters (probes : List (Fin 16)) (s : State) : State := probes.foldl wakeFilterAt s

/-- The glitch width passes on the candidate of a probe's wake comparator (R14). -/
def wakeSideEdge (p : Fin 16) (s : State) : State :=
  if s.pwu.power = .sleep then
    match (s.pfe.probes[p]).wake with
    | some ⟨_, some c⟩ =>
      wakeEdgeAt p c.level (s.setPfe
        { s.pfe with probes := modifyAt s.pfe.probes p fun x => { x with wake := some ⟨c.level, none⟩ } })
    | _ => s
  else s

/-- Pins take new voltages. -/
def Pfe.withPins (x : Pfe) (changes : List PinChange) : Pfe :=
  { x with pins := changes.foldl (fun v c => v.set c.probe c.millivolts) x.pins }

/-- Pins take new voltages at one moment, and the filters see the raw levels that result, after the candidates due at that
moment are qualified; the lanes read all its edges as one change (R3, R6, R14; log 26, log 32). -/
def rawLevelChange (changes : List PinChange) (due : List (Fin 16)) (s : State) : State :=
  let moved := changes.map (·.probe)
  if s.pwu.power = .sleep then wakeFilters moved (s.setPfe (s.pfe.withPins changes))
  else movePfe (((s.pfe.qualify due).withPins changes).filterWhere fun i => i ∈ moved) s

/-! ## Sleep and wake -/

/-- A probe as SLEEP is entered: its candidate is discarded, and a wake source's comparator takes the record's level as
its reference (R13, R14). -/
def Probe.enterSleep (e : WakeEdge) (p : Probe) : Probe :=
  { p with candidate := none, wake := if e = .none then none else some ⟨p.level, none⟩ }

/-- The Probe Front End as SLEEP is entered (R13). -/
def Pfe.enterSleep (edges : Vector WakeEdge 16) (x : Pfe) : Pfe :=
  { x with due := [], probes := Vector.ofFn fun i => (x.probes[i]).enterSleep edges[i] }

/-- A probe record brought up to date at wake (R15). -/
def Probe.wakeUp (raw : Bool) (p : Probe) : Probe :=
  { p with level := raw, edgesNow := 0, edgesLast := 0, candidate := none, wake := none }

/-- The Probe Front End at wake (R15). -/
def Pfe.wakeUp (x : Pfe) : Pfe :=
  { x with probes := Vector.ofFn fun i => (x.probes[i]).wakeUp (x.raw i) }

/-- What R163 asks for: no posting, no request, no unit waiting or being served, and LSEL high. -/
def sleepEntryDone (s : State) : Bool :=
  s.pwu.op = .sleepEntry && !s.ctl.lselLow && s.rte.serving.isNone && (nextPosition s).isNone

/-- Sleep entry completes (R163). The comparators of R14 judge the raw levels from that moment (log 10). -/
def sleepEntryCompletion (s : State) : State :=
  if sleepEntryDone s then
    let s := s.setPwu { s.pwu with power := .sleep, op := .none }
    let s := s.setRte { s.rte with epochTimer := false }
    wakeFilters probeNumbers (s.setPfe (s.pfe.enterSleep s.pwu.wakeEdges))
  else s

/-- The six steps of a wake that completes (R167). -/
def wakeSteps (s : State) : State :=
  let s := s.setPwu s.pwu.toRun
  let s := s.setPfe s.pfe.wakeUp
  let s := s.setRte { s.rte with epochTimer := true }
  panelTurnOn (raise .wake (restartEnabled s))

/-! ## Commands -/

/-- The threshold code of a request in millivolts, clamped (R9). -/
def thresholdCode (millivolts : Nat) : Nat := max 10 (min 250 ((millivolts + 10) / 20))

/-- A bank with the settings a request gives it (R9). -/
def Pfe.setBank (b : Fin 2) (millivolts width : Nat) (x : Pfe) : Pfe :=
  { x with banks := x.banks.set b ⟨thresholdCode millivolts, min 15 width⟩ }

/-- What PROBE-SET asks of a bank (R9). -/
structure BankRequest where
  bank : Fin 2
  millivolts : Nat
  width : Nat
  deriving DecidableEq, Repr

/-- Banks with the settings that requests give them, and the candidates due at that moment qualified (R4, R9, R10). -/
def Pfe.withBanks (rs : List BankRequest) (x : Pfe) : Pfe :=
  { rs.foldl (fun x r => x.setBank r.bank r.millivolts r.width) (x.qualify x.due) with due := [] }

/-- Banks take settings at one moment, and their comparators and filters act on them from then; the lanes read every edge of
that moment as one change (R4, R6, R9, R10; log 26). A pin change at that moment is a step of its own, and its edges another
change: the model's choice (log 33). -/
def applyBanks (rs : List BankRequest) (s : State) : State :=
  movePfe ((s.pfe.withBanks rs).filterWhere fun i => rs.any fun r => r.bank = bankOf i) s

/-- A bank operand (R9). -/
def bankOperand (n : Nat) : Option (Fin 2) :=
  if n = 0 then some 0 else if n = 1 then some 1 else none

/-- A bank's code, millivolts and width in an answer (R198). -/
def Bank.bytes (b : Bank) : List Byte :=
  [byteOf b.code] ++ beBytes 2 (20 * b.code) ++ [byteOf b.width]

/-- A probe's 5 bytes in a PROBE-READ answer (R198). -/
def Probe.bytes (p : Probe) : List Byte :=
  byteOf ((if p.level then 1 else 0) + (if p.glitch then 2 else 0)) :: (beBytes 2 p.edgesNow ++ beBytes 2 p.edgesLast)

/-- The PROBE-READ snapshot (R11, R198). -/
def probeSnapshot (s : State) : List Byte :=
  beBytes 4 s.rte.epoch ++ (s.pfe.banks.toList.map Bank.bytes).flatten ++ (s.pfe.probes.toList.map Probe.bytes).flatten

/-- The clear option's notes: one for each probe reported with its glitch mark set (R12). -/
def noteGlitches (s : State) : State :=
  s.setPfe { s.pfe with probes := mapAll (fun p => { p with clearNote := p.glitch }) s.pfe.probes }

/-- PROBE-READ is served (R11, R12). -/
def serveProbeRead (ops : List Byte) (s : State) : State × Answer :=
  match flagOf (byteAt ops 0) with
  | none => (s, .refuse .badOperand)
  | some clear => (if clear then noteGlitches s else s, ⟨.ok, probeSnapshot s⟩)

/-- PROBE-SET is served (R9). -/
def serveProbeSet (ops : List Byte) (s : State) : State × Answer :=
  match bankOperand (byteAt ops 0) with
  | none => (s, .refuse .badOperand)
  | some b =>
    let s := applyBanks [⟨b, natAt ops 1 2, byteAt ops 3⟩] s
    (s, ⟨.ok, byteOf b.val :: (s.pfe.banks[b]).bytes⟩)

/-- A probe at complete delivery: a note that still stands clears its glitch mark, and is dropped (R12). -/
def Probe.deliverClear (p : Probe) : Probe :=
  { p with
    glitch := p.glitch && !p.clearNote
    clearNote := false }

/-- Complete delivery of a PROBE-READ answer: each probe whose note still stands loses its glitch mark (R12). -/
def deliverGlitches (s : State) : State :=
  s.setPfe { s.pfe with probes := mapAll Probe.deliverClear s.pfe.probes }

/-- The loss of a PROBE-READ answer: the notes are dropped (R12). -/
def dropGlitchNotes (s : State) : State :=
  s.setPfe { s.pfe with probes := mapAll (fun p => { p with clearNote := false }) s.pfe.probes }

end Sys2Proof.Machine
end

