-- ==== Sys2Proof/Machine/Watch.lean ====
section
/-! DEFINITION. The Watch, Trap and Attention Unit: watch slots, trap windows, the cause and enable sets (chapter 7). -/

namespace Sys2Proof.Machine

/-! ## Watch slots -/

/-- A report of a bound record's new value (R121, R123). -/
def Slot.report (v : Word) : Slot → Slot
  | .free => .free
  | .armed k => .pending k v false none
  | .pending k _ _ none => .pending k v true none
  | .pending k old missed (some t) => .pending k old missed (some { t with newer := some (v, t.newer.isSome) })
  | .detached k old missed t => .detached k old missed t

/-- A report that the bound record has been retired (R126). -/
def Slot.retired : Slot → Slot
  | .free => .free
  | .armed _ => .free
  | .pending k v missed t => .detached k (some v) missed t
  | .detached k v missed t => .detached k v missed t

/-- Complete delivery of an OK answer to TAKE-WATCH (R124). -/
def Slot.delivered : Slot → Slot
  | .pending k _ _ (some ⟨_, none⟩) => .armed k
  | .pending k _ _ (some ⟨_, some (v, m)⟩) => .pending k v m none
  | .detached _ _ _ (some ⟨true, _⟩) => .free
  | .detached k _ _ (some ⟨false, none⟩) => .detached k none false none
  | .detached k _ _ (some ⟨false, some (v, m)⟩) => .detached k (some v) m none
  | x => x

/-- The loss of an OK answer to TAKE-WATCH (R125). -/
def Slot.lost : Slot → Slot
  | .pending k v missed (some ⟨_, none⟩) => .pending k v missed none
  | .pending k _ _ (some ⟨_, some (v, _)⟩) => .pending k v true none
  | .detached k v missed (some ⟨_, none⟩) => .detached k v missed none
  | .detached k _ _ (some ⟨_, some (v, _)⟩) => .detached k (some v) true none
  | x => x

/-- The taken-marker set as an OK answer is composed (R122). -/
def Slot.mark : Slot → Slot
  | .pending k v missed _ => .pending k v missed (some ⟨false, none⟩)
  | .detached k v missed _ => .detached k v missed (some ⟨true, none⟩)
  | x => x

/-- The key of the record a slot in ARMED or PENDING is bound to (R118). -/
def Slot.boundKey : Slot → Option Key
  | .armed k | .pending k _ _ _ => some k
  | .free | .detached .. => none

/-- A slot changed by `f`, in the part. -/
def modifySlot (i : Fin 8) (f : Slot → Slot) (s : State) : State :=
  s.setWta { s.wta with slots := modifyAt s.wta.slots i f }

/-- The 9-byte payload of an OK answer to TAKE-WATCH (R122, R198). -/
def takePayload (k : Key) (v : Option Word) (missed detached : Bool) : List Byte :=
  k.bytes ++ optWordBytes v
    ++ [byteOf ((if v.isSome then 1 else 0) + (if missed then 2 else 0) + (if detached then 4 else 0))]

/-- TAKE-WATCH is served (R122). -/
def serveTakeWatch (ops : List Byte) (s : State) : State × Answer :=
  match slotOf (byteAt ops 0) with
  | none => (s, .refuse .badOperand)
  | some i =>
    match s.wta.slots[i] with
    | .pending k v missed _ => (modifySlot i Slot.mark s, ⟨.ok, takePayload k (some v) missed false⟩)
    | .detached k v missed _ => (modifySlot i Slot.mark s, ⟨.ok, takePayload k v missed true⟩)
    | .armed _ => (s, .refuse .nothing)
    | .free => (s, .refuse .denied)

/-- The binding of a slot broken at both ends (R118, R120). -/
def unbind (i : Fin 8) (s : State) : State :=
  let s' := match (s.wta.slots[i]).boundKey with
    | some k => modifyRecord k (fun r => { r with watch := none }) s
    | none => s
  modifySlot i (fun _ => .free) s'

/-- WATCH-FREE is served (R120). -/
def serveWatchFree (ops : List Byte) (s : State) : State × Answer :=
  match slotOf (byteAt ops 0) with
  | none => (s, .refuse .badOperand)
  | some i => (unbind i s, ⟨.ok, [(s.wta.slots[i]).code]⟩)

/-- WATCH-SET is served, its checks in the order of R119. -/
def serveWatchSet (ops : List Byte) (s : State) : State × Answer :=
  match slotOf (byteAt ops 0) with
  | none => (s, .refuse .badOperand)
  | some i =>
    let k := keyOf (bytesAt ops 1 4)
    if s.wta.slots[i] ≠ .free then (s, .refuse .denied)
    else match lookup k s.rte.table with
      | none => (s, .refuse .noRecord)
      | some r =>
        if r.watch.isSome then (s, .refuse .already)
        else
          (modifySlot i (fun _ => .armed k) (modifyRecord k (fun r => { r with watch := some i }) s),
            ⟨.ok, byteOf i.val :: k.bytes⟩)

/-- Every slot changed by `f`, in the part. -/
def mapSlots (f : Slot → Slot) (s : State) : State :=
  s.setWta { s.wta with slots := mapAll f s.wta.slots }

/-! ## Trap windows -/

/-- A window's direction takes a posting's (R128). -/
def TrapDir.takes : TrapDir → Dir → Bool
  | .both, _ => true
  | .write, d => d = .write
  | .read, d => d = .read

/-- A posting matches a window (R128). -/
def Trap.hit (p : Posting) (t : Trap) : Bool :=
  t.mode ≠ .off && t.lane = p.key.lane && t.target = p.key.target
    && t.low ≤ p.key.register.toNat && p.key.register.toNat ≤ t.high && t.dir.takes p.dir

/-- A match counted in a clear note (R129, R131). -/
def TrapNote.counted (k : Key) (n : TrapNote) : TrapNote :=
  ⟨countUp n.count, some (n.first.getD k)⟩

/-- A match counted in a window (R129). -/
def Trap.counted (k : Key) (t : Trap) : Trap :=
  { t with count := countUp t.count, first := some (t.first.getD k), clearNote := t.clearNote.map (·.counted k) }

/-- A window of a mode matches a posting. -/
def anyHit (m : TrapMode) (p : Posting) (s : State) : Bool :=
  s.wta.traps.toList.any fun t => t.hit p && t.mode = m

/-- The first step of absorption: every matching window counts, and a NOTIFY match raises TRAP (R91, R129). -/
def matchTraps (p : Posting) (s : State) : State :=
  raiseIf (anyHit .notify p s) .trap
    (s.setWta { s.wta with traps := mapAll (fun t => if t.hit p then t.counted p.key else t) s.wta.traps })

/-- A window number operand (R130). -/
def windowOf (n : Nat) : Option (Fin 4) := laneOf n

/-- A window is written, its count cleared and any clear note dropped (R130). -/
def writeTrap (i : Fin 4) (t : Trap) (s : State) : State :=
  s.setWta { s.wta with traps := s.wta.traps.set i t }

/-- TRAP-SET is served (R130). -/
def serveTrapSet (ops : List Byte) (s : State) : State × Answer :=
  match windowOf (byteAt ops 0),
      trapOf (byteAt ops 1) (byteAt ops 2) (natAt ops 3 2) (natAt ops 5 2) (natAt ops 7 2) (byteAt ops 9) with
  | some i, some t => (writeTrap i t s, ⟨.ok, t.bytes⟩)
  | _, _ => (s, .refuse .badOperand)

/-- TRAP-READ is served (R131). -/
def serveTrapRead (ops : List Byte) (s : State) : State × Answer :=
  match windowOf (byteAt ops 0), flagOf (byteAt ops 1) with
  | some i, some clear =>
    let t := s.wta.traps[i]
    (if clear then writeTrap i { t with clearNote := some ⟨0, none⟩ } s else s, ⟨.ok, t.bytes⟩)
  | _, _ => (s, .refuse .badOperand)

/-- Complete delivery of a TRAP-READ answer (R131). -/
def Trap.delivered (t : Trap) : Trap :=
  match t.clearNote with
  | some n => { t with count := n.count, first := n.first, clearNote := none }
  | none => t

/-- Every window changed by `f`, in the part. -/
def mapTraps (f : Trap → Trap) (s : State) : State :=
  s.setWta { s.wta with traps := mapAll f s.wta.traps }

/-! ## Attention -/

/-- Event causes cleared; when ADMIT is named the first-refused capture is emptied in the same act (R94, R134). -/
def acknowledge (mask : BitVec 9) (s : State) : State :=
  let s := s.setWta { s.wta with causes := s.wta.causes &&& ~~~mask }
  if mask &&& Cause.admission.bit ≠ 0 then s.setRte { s.rte with capture := none } else s

/-- ACKNOWLEDGE is served (R134). -/
def serveAcknowledge (ops : List Byte) (s : State) : State × Answer :=
  match maskOf ops with
  | none => (s, .refuse .badOperand)
  | some m => let s := acknowledge m s; (s, ⟨.ok, setBytes s.wta.causeSet⟩)

/-- ATTN-ENABLE with its operand check (R135). -/
def attnEnable (ops : List Byte) (s : State) : Option State :=
  (maskOf ops).map fun m => s.setWta { s.wta with enables := m }

/-- ATTN-ENABLE is served (R135). -/
def serveAttnEnable (ops : List Byte) (s : State) : State × Answer :=
  match attnEnable ops s with
  | none => (s, .refuse .badOperand)
  | some s => (s, ⟨.ok, setBytes s.wta.enables ++ setBytes s.wta.causeSet⟩)

end Sys2Proof.Machine
end

