-- ==== Sys2Proof/Machine/Table.lean ====
section
/-! DEFINITION. The Register Table Engine: retirement, admission and eviction, absorption, lane requests, and the table
commands (chapter 6). -/

namespace Sys2Proof.Machine

/-! ## Retirement -/

/-- A record is retired, and a watch slot bound to it is told in the same act (R99, R126). -/
def retireRecord (r : Record) (s : State) : State :=
  let s := s.setRte { s.rte with table := removeRecord r.key s.rte.table }
  r.watch.elim s fun i => modifySlot i Slot.retired s

/-- Records are retired one after another (R100, R113). -/
def retireAll (rs : List Record) (s : State) : State :=
  rs.foldl (fun s r => retireRecord r s) s

/-! ## Admission and eviction -/

/-- Record `a` is the better eviction candidate: lower decayed heat, then older last access, then lower key (R93). -/
def colder (epoch : Nat) (a b : Record) : Bool :=
  decayedHeat a epoch < decayedHeat b epoch
    || (decayedHeat a epoch = decayedHeat b epoch
      && (a.lastAccess < b.lastAccess || (a.lastAccess = b.lastAccess && a.key.num < b.key.num)))

/-- Eviction may choose the record: it is neither pinned nor bound to a watch slot (R93). -/
def Record.evictable (r : Record) : Bool := !r.pinned && r.watch.isNone

/-- The better of a candidate so far and a record. -/
def pickColder (epoch : Nat) (best : Option Record) (r : Record) : Option Record :=
  match best with
  | none => some r
  | some b => if colder epoch r b then some r else some b

/-- The eviction candidate of the table as it stands (R93). -/
def evictionCandidate (epoch : Nat) (table : List Record) : Option Record :=
  (table.filter Record.evictable).foldl (pickColder epoch) none

/-- A new record is created (R92). -/
def createRecord (k : Key) (width : Nat) (s : State) : State :=
  s.setRte { s.rte with table := insertRecord (newRecord k width s.rte.epoch) s.rte.table }

/-- Admission is refused: ADMIT is raised and an empty first-refused capture filled (R94). -/
def refuseAdmission (k : Key) (s : State) : State :=
  raise .admission (s.setRte { s.rte with capture := some (s.rte.capture.getD (k, s.rte.epoch)) })

/-- A key without a record is admitted, with an eviction if the table is full; `false` when refused (R92, R93, R94). -/
def admitKey (k : Key) (width : Nat) (s : State) : State × Bool :=
  if s.rte.table.length < Config.tableCapacity then (createRecord k width s, true)
  else match evictionCandidate s.rte.epoch s.rte.table with
    | some c => (createRecord k width (retireRecord c s), true)
    | none => (refuseAdmission k s, false)

/-! ## Absorption -/

/-- A value disagrees with an expectation under its mask (R97). -/
def Expectation.disagrees (x : Expectation) (v : Word) : Bool :=
  ((v ^^^ x.expected) &&& x.mask) != 0

/-- The posting changes the record's value: it is absent or differs (R95, R96). -/
def Record.changedBy (p : Posting) (r : Record) : Bool := r.value ≠ some p.value

/-- The record diverges at this posting: a READ differs from the last value written (R96). -/
def Record.divergesAt (p : Posting) (r : Record) : Bool :=
  p.dir = .read && r.written.elim false fun w => w ≠ p.value

/-- What the posting observes in the record: written, diverged, value and origin (R95, R96). -/
def Record.observe (p : Posting) (r : Record) : Record :=
  { r with
    written := if p.dir = .write then some p.value else r.written
    diverged := r.diverged || r.divergesAt p
    seen := if r.changedBy p then some ⟨p.value, p.dir⟩ else r.seen }

/-- What every absorbed posting updates (R88, R97). -/
def Record.refresh (p : Posting) (epoch : Nat) (r : Record) : Record :=
  { r with
    unverified := false
    heat := min 65535 (decayedHeat r epoch + heatOf p.dir), stamp := epoch
    lastAccess := epoch
    mismatched := r.mismatched || r.expectation.elim false fun x => x.disagrees p.value }

/-- The held part a change leaves: the value before it, filled once while hold is in force (R98). -/
def Record.heldAfter (hold : Bool) (r : Record) : Option Held :=
  match hold, r.held with
  | true, none => some (match r.value with
    | some v => .value v
    | none => .none)
  | _, h => h

/-- What a change of value updates in `r`; `old` is the record before the posting (R98). -/
def Record.countChange (r : Record) (hold : Bool) (epoch : Nat) (old : Record) : Record :=
  { r with changes := countUp r.changes, lastChange := some epoch, held := old.heldAfter hold }

/-- A record after it has absorbed a posting (R95 to R98). -/
def Record.absorb (p : Posting) (hold : Bool) (epoch : Nat) (r : Record) : Record :=
  let r' := (r.observe p).refresh p epoch
  if r.changedBy p then r'.countChange hold epoch r else r'

/-- A change reported to the watch slot bound to the record (R98, R121). -/
def reportChange (p : Posting) (r : Record) (s : State) : State :=
  if r.changedBy p then r.watch.elim s fun i => modifySlot i (Slot.report p.value) s else s

/-- A posting absorbed for a record, with the causes it raises and the report to a watch slot (R95 to R98). -/
def absorbInto (r : Record) (p : Posting) (s : State) : State :=
  let r' := r.absorb p s.rte.hold s.rte.epoch
  let s := modifyRecord p.key (fun _ => r') s
  let s := raiseIf (r'.diverged && !r.diverged && r.notify) .diverge s
  let s := raiseIf (r'.mismatched && !r.mismatched) .mismatch s
  reportChange p r s

/-- Absorption past the trap windows: lookup, admission, update (R92). -/
def absorbKept (p : Posting) (s : State) : State :=
  match lookup p.key s.rte.table with
  | some r => absorbInto r p s
  | none =>
    match admitKey p.key p.width s with
    | (s, true) => absorbInto (newRecord p.key p.width s.rte.epoch) p s
    | (s, false) => s

/-- A posting is absorbed (R91): counted by the windows, then dropped if an EXCLUDE window matches. -/
def absorbPosting (p : Posting) (s : State) : State :=
  let excluded := anyHit .exclude p s
  let s := matchTraps p s
  if excluded then s else absorbKept p s

/-- The slot of lane `i` is emptied (R24). -/
def emptySlot (i : Fin 4) (s : State) : State :=
  s.setLane i { s.lanes[i] with slot := none }

/-- The unit of lane `i` that absorbs the posting in its slot; a waiting request goes first (R89, R91). -/
def absorption (i : Fin 4) (s : State) : State :=
  match (s.lanes[i]).request, (s.lanes[i]).slot with
  | none, some p => unitAt (.lane i) (fun s => absorbPosting p (emptySlot i s)) s
  | _, _ => s

/-! ## Marking and retirement of a lane's records -/

/-- The request of lane `i` has been served. -/
def clearRequest (i : Fin 4) (s : State) : State :=
  s.setLane i { s.lanes[i] with request := none }

/-- A record of lane `i` as marking leaves it (R100). -/
def Record.markFor (i : Fin 4) (r : Record) : Record :=
  if r.key.lane = i ∧ r.seen.isSome then { r with unverified := true } else r

/-- Every record of lane `i` that has a value becomes unverified (R100). -/
def markLane (i : Fin 4) (s : State) : State :=
  s.setRte { s.rte with table := s.rte.table.map (Record.markFor i) }

/-- Every record of lane `i` is retired, in key order (R100). -/
def retireLane (i : Fin 4) (s : State) : State :=
  retireAll (s.rte.table.filter fun r => r.key.lane = i) s

/-! ## The record answer -/

/-- A bit of a byte, set or clear. -/
def bitAt (n : Nat) (b : Bool) : Nat := if b then 2 ^ n else 0

/-- Byte 5 of the record answer (R198). -/
def Record.presence (r : Record) : Nat :=
  bitAt 0 r.seen.isSome + bitAt 1 r.written.isSome + bitAt 2 r.held.isSome + bitAt 3 (r.held = some .none)
    + bitAt 4 r.expectation.isSome + bitAt 5 r.label.isSome + bitAt 6 r.lastChange.isSome + bitAt 7 r.watch.isSome

/-- Byte 6 of the record answer (R198). -/
def Record.flagByte (r : Record) : Nat :=
  bitAt 0 (r.seen.elim false fun x => x.origin = .read) + bitAt 1 r.pinned + bitAt 2 r.notify + bitAt 3 r.diverged
    + bitAt 4 r.mismatched + bitAt 5 r.unverified

/-- The held value of the record answer; absent and NONE are zeros (R196). -/
def Record.heldValue (r : Record) : Option Word :=
  match r.held with
  | some (.value v) => some v
  | _ => none

/-- The 48-byte record answer, composed at an epoch (R104, R198). -/
def Record.bytes (epoch : Nat) (r : Record) : List Byte :=
  r.key.bytes ++ [byteOf r.width, byteOf r.presence, byteOf r.flagByte,
      byteOf ((r.label.getD []).length * 16 + r.watch.elim 0 Fin.val)]
    ++ optWordBytes r.value ++ optWordBytes r.written ++ optWordBytes r.heldValue
    ++ optWordBytes (r.expectation.map (·.expected)) ++ optWordBytes (r.expectation.map (·.mask))
    ++ r.label.elim (beBytes 12 0) (padRight 12)
    ++ beBytes 2 (decayedHeat r epoch) ++ beBytes 2 r.changes
    ++ beBytes 2 (r.lastChange.elim Config.countMax (ageOf epoch)) ++ beBytes 2 (ageOf epoch r.lastAccess)

/-! ## Table commands -/

/-- A PROFILE-LOAD is in flight (R103). -/
def profileLoadInFlight (s : State) : Bool :=
  match s.pim.op with
  | .load l => l.scope != .startUp
  | .none | .store _ => false

/-- LOOKUP is served (R104). -/
def serveLookup (ops : List Byte) (s : State) : State × Answer :=
  match lookup (keyOf (bytesAt ops 0 4)) s.rte.table with
  | none => (s, .refuse .noRecord)
  | some r => (s, ⟨.ok, r.bytes s.rte.epoch⟩)

/-- WALK-FROM is served (R105). -/
def serveWalkFrom (ops : List Byte) (s : State) : State × Answer :=
  (s.setRte { s.rte with cursor := keyOf (bytesAt ops 0 4) }, ⟨.ok, []⟩)

/-- The records a WALK returns (R106). -/
def walkTake (cursor : Key) (count : Nat) (table : List Record) : List Record :=
  (table.filter fun r => cursor.num ≤ r.key.num).take (min 16 count)

/-- The end mark of a WALK: no record lies above the last one returned, or none is returned (R106). -/
def walkEnd (table returned : List Record) : Bool :=
  match returned.getLast? with
  | none => true
  | some r => !table.any fun x => r.key.num < x.key.num

/-- Where complete delivery moves the cursor (R107). -/
def walkCursor (table returned : List Record) : Key :=
  if walkEnd table returned then Key.first
  else (returned.getLast?.bind fun r => r.key.next).getD Key.first

/-- WALK is served (R106); the cursor moves at complete delivery (R107). -/
def serveWalk (ops : List Byte) (s : State) : State × Answer :=
  if byteAt ops 0 = 0 then (s, .refuse .badOperand)
  else
    let rs := walkTake s.rte.cursor (byteAt ops 0) s.rte.table
    (s.setRte { s.rte with walkNote := some (walkCursor s.rte.table rs) },
      ⟨.ok, [byteOf rs.length, boolByte (walkEnd s.rte.table rs)] ++ (rs.map (Record.bytes s.rte.epoch)).flatten⟩)

/-- SEED is served (R103, R108, R109). -/
def serveSeed (ops : List Byte) (s : State) : State × Answer :=
  let k := keyOf (bytesAt ops 0 4)
  let cfg := (s.lanes[k.lane]).cfg
  if profileLoadInFlight s then (s, .refuse .busy)
  else if !keyFits cfg k then (s, .refuse .badOperand)
  else if (lookup k s.rte.table).isSome then (s, ⟨.ok, [0]⟩)
  else match admitKey k cfg.w s with
    | (s, true) => (s, ⟨.ok, [1]⟩)
    | (s, false) => (s, .refuse .full)

/-- The changes of an AMEND or of a seed (R110, R191). In the optional fields `none` changes nothing. -/
structure Amendment where
  clearDiverged : Bool
  clearMismatched : Bool
  clearChanges : Bool
  label : Option (Option (List Byte))
  pinned : Option Bool
  notify : Option Bool
  expectation : Option (Option Expectation)
  deriving DecidableEq, Repr

/-- An expectation with the bits at or above the record's width cleared (R111). -/
def Expectation.fit (width : Nat) (x : Expectation) : Expectation :=
  ⟨x.expected &&& widthMask width, x.mask &&& widthMask width⟩

/-- Steps 1 and 2 of R111: the clears, then label, pinned and divergence-notify. -/
def Record.amendPlain (a : Amendment) (r : Record) : Record :=
  { r with
    diverged := r.diverged && !a.clearDiverged
    mismatched := r.mismatched && !a.clearMismatched
    changes := if a.clearChanges then 0 else r.changes
    label := a.label.getD r.label
    pinned := a.pinned.getD r.pinned
    notify := a.notify.getD r.notify }

/-- Step 3 of R111: the expectation change, a set one tested against the value. -/
def Record.amendExpectation (c : Option (Option Expectation)) (r : Record) : Record :=
  match c with
  | none => r
  | some none => { r with expectation := none, mismatched := false }
  | some (some x) =>
    { r with
      expectation := some (x.fit r.width)
      mismatched := r.mismatched || r.value.elim false fun v => (x.fit r.width).disagrees v }

/-- An amendment applied to the record of a key, raising MISMATCH where step 3 sets the flag (R111). -/
def amendRecord (a : Amendment) (r : Record) (s : State) : State :=
  let r1 := r.amendPlain a
  let r2 := r1.amendExpectation a.expectation
  raiseIf (r2.mismatched && !r1.mismatched) .mismatch (modifyRecord r.key (fun _ => r2) s)

/-- A printable code (R84). -/
def printable (b : Byte) : Bool := 0x20 ≤ b.toNat && b.toNat ≤ 0x7E

/-- A set/clear pair of the change set: refused when both are named (R110). -/
def setOrClear (set clear : Bool) : Option (Option Bool) :=
  if set && clear then none else if set then some (some true) else if clear then some (some false) else some none

/-- The label change of an AMEND: its length 1-12 and its characters checked (R110). -/
def labelChange (c : Option Bool) (length : Nat) (bytes : List Byte) : Option (Option (Option (List Byte))) :=
  match c with
  | none => some none
  | some false => some (some none)
  | some true =>
    if 1 ≤ length ∧ length ≤ 12 ∧ (bytes.take length).all printable then some (some (some (bytes.take length)))
    else none

/-- The operand checks of AMEND after its key, and the amendment they accept (R110, R197). -/
def parseAmend (ops : List Byte) : Option Amendment :=
  let set := natAt ops 4 2
  match setOrClear (set.testBit 0) (set.testBit 1), setOrClear (set.testBit 2) (set.testBit 3),
      setOrClear (set.testBit 4) (set.testBit 5), setOrClear (set.testBit 6) (set.testBit 7) with
  | some lab, some ex, some pin, some notify =>
    (labelChange lab (byteAt ops 6) (bytesAt ops 7 12)).map fun label =>
      { clearDiverged := set.testBit 8, clearMismatched := set.testBit 9, clearChanges := set.testBit 10
        label, pinned := pin, notify
        expectation := ex.map fun b => if b then some ⟨wordAt ops 19, wordAt ops 23⟩ else none }
  | _, _, _, _ => none

/-- AMEND is served (R103, R110, R111). -/
def serveAmend (ops : List Byte) (s : State) : State × Answer :=
  let k := keyOf (bytesAt ops 0 4)
  if profileLoadInFlight s then (s, .refuse .busy)
  else match parseAmend ops with
    | none => (s, .refuse .badOperand)
    | some a => match lookup k s.rte.table with
      | none => (s, .refuse .noRecord)
      | some r =>
        let s := amendRecord a r s
        (s, ⟨.ok, (lookup k s.rte.table).elim [] (Record.bytes s.rte.epoch)⟩)

/-- RETIRE is served (R103, R112). -/
def serveRetire (ops : List Byte) (s : State) : State × Answer :=
  if profileLoadInFlight s then (s, .refuse .busy)
  else match lookup (keyOf (bytesAt ops 0 4)) s.rte.table with
    | none => (s, .refuse .noRecord)
    | some r => (retireRecord r s, ⟨.ok, []⟩)

/-- The records a CLEAR-TABLE retires: the unpinned ones, or all (R113). -/
def clearScope (all : Bool) (table : List Record) : List Record :=
  table.filter fun r => all || !r.pinned

/-- CLEAR-TABLE is served (R103, R113). -/
def serveClearTable (ops : List Byte) (s : State) : State × Answer :=
  if profileLoadInFlight s then (s, .refuse .busy)
  else match flagOf (byteAt ops 0) with
    | none => (s, .refuse .badOperand)
    | some all =>
      let rs := clearScope all s.rte.table
      (retireAll rs s, ⟨.ok, beBytes 2 rs.length⟩)

/-- TABLE-INFO is served (R114). -/
def serveTableInfo (s : State) : State × Answer :=
  (s, ⟨.ok, beBytes 2 s.rte.table.length ++ beBytes 4 s.rte.epoch ++ [boolByte s.rte.hold] ++ s.rte.cursor.bytes
    ++ [boolByte s.rte.capture.isSome]
    ++ s.rte.capture.elim (absent4 ++ absent4) fun c => c.1.bytes ++ beBytes 4 c.2⟩)

/-- HOLD is served (R101). -/
def serveHold (ops : List Byte) (s : State) : State × Answer :=
  match flagOf (byteAt ops 0) with
  | none => (s, .refuse .badOperand)
  | some on => (setHold on s, ⟨.ok, [boolByte on]⟩)

end Sys2Proof.Machine
end

