-- ==== Sys2Proof/Machine/LaneCommands.lean ====
section
/-! DEFINITION. LANE-SET, LANE-ENABLE and LANE-STATUS at their lane (R19, R20, R21, R30). -/

namespace Sys2Proof.Machine

/-! ## Configuration and enable -/

/-- The request a configuration change raises: a retirement when kind, W or A differs (R20). -/
def reconfigureRequest (old new : LaneConfig) : LaneRequest :=
  if old.kind ≠ new.kind ∨ old.w ≠ new.w ∨ old.a ≠ new.a then .retirement else .marking

/-- A lane takes an accepted configuration and is restarted (R20). -/
def installConfig (i : Fin 4) (c : LaneConfig) (s : State) : State :=
  restartLane i (reconfigureRequest (s.lanes[i]).cfg c) (fun l => { l with cfg := c }) s

/-- A lane takes an enable and is restarted (R21). -/
def installEnable (i : Fin 4) (on : Bool) (s : State) : State :=
  restartLane i .marking (fun l => { l with enabled := on }) s

/-- A load of scope ALL is in flight (R19, R21). -/
def loadAllInFlight (s : State) : Bool :=
  match s.pim.op with
  | .load l => l.scope == .all
  | .none | .store _ => false

/-- LANE-SET at its taking, its checks in the order of R19: the part with the configuration installed, or the refusal. -/
def takeLaneSet (ops : List Byte) (s : State) : Except Status State :=
  if loadAllInFlight s then .error .busy
  else match laneOf (byteAt ops 0), parseLaneConfig (bytesAt ops 1 24) with
    | some i, some c => .ok (installConfig i c s)
    | _, _ => .error .badOperand

/-- LANE-ENABLE at its taking, its checks in the order of R21. -/
def takeLaneEnable (ops : List Byte) (s : State) : Except Status State :=
  if loadAllInFlight s then .error .busy
  else match laneOf (byteAt ops 0), flagOf (byteAt ops 1) with
    | some i, some on => .ok (installEnable i on s)
    | _, _ => .error .badOperand

/-- The answer to an accepted LANE-SET, once the request of its lane has been served (R19, R198). -/
def laneSetAnswer (i : Fin 4) (s : State) : Answer :=
  ⟨.ok, byteOf i.val :: (s.lanes[i]).cfg.bytes⟩

/-- The answer to an accepted LANE-ENABLE, once the request of its lane has been served (R21, R198). -/
def laneEnableAnswer (i : Fin 4) (s : State) : Answer :=
  ⟨.ok, [(s.lanes[i]).state.code]⟩

/-! ## Status -/

/-- The 30-byte LANE-STATUS snapshot (R30, R198). -/
def Lane.statusBytes (l : Lane) : List Byte :=
  [l.state.code, boolByte l.enabled] ++ l.cfg.bytes ++ beBytes 2 l.flags.toNat
    ++ [boolByte l.slot.isSome, byteOf l.pointers.length]

/-- The flags the answer reports as set are noted (R30). -/
def Lane.noteFlags (l : Lane) : Lane := { l with notes := l.flags }

/-- Complete delivery: each flag whose note still stands is cleared, and the notes are dropped (R30). -/
def Lane.deliverFlags (l : Lane) : Lane := { l with flags := l.flags &&& ~~~l.notes, notes := 0 }

/-- The loss of the answer: the notes are dropped (R30). -/
def Lane.dropNotes (l : Lane) : Lane := { l with notes := 0 }

/-- Lane `i` changed by `f`, in the part. -/
def modifyLane (i : Fin 4) (f : Lane → Lane) (s : State) : State :=
  s.setLanes (modifyAt s.lanes i f)

/-- LANE-STATUS is served (R30). -/
def serveLaneStatus (ops : List Byte) (s : State) : State × Answer :=
  match laneOf (byteAt ops 0), flagOf (byteAt ops 1) with
  | some i, some clear => (if clear then modifyLane i Lane.noteFlags s else s, ⟨.ok, (s.lanes[i]).statusBytes⟩)
  | _, _ => (s, .refuse .badOperand)

end Sys2Proof.Machine
end

