-- ==== Sys2Proof/Machine/Image.lean ====
section
/-! DEFINITION. The profile image: its judgement (R188), the reading of its settings block and seeds (R200, R201), and the
image a store composes (R193). -/

namespace Sys2Proof.Machine

/-! ## Places in the image (R200) -/

/-- The length of an image with a seed count (R186). -/
def imageLength (seeds : Nat) : Nat := 16 + 128 + 32 * seeds

/-- The settings block of the image in the flash. -/
def Flash.settings (m : Flash) : List Byte := m.readAll 16 128

/-- Seed entry `i` of the image in the flash. -/
def Flash.seed (m : Flash) (i : Nat) : List Byte := m.readAll (144 + 32 * i) 32

/-- The seed count the header gives. -/
def Flash.seedCount (m : Flash) : Nat := beNat (m.readAll 5 2)

/-- The sum of bytes modulo 256. -/
def byteSum (bytes : List Byte) : Byte := bytes.foldl (· + ·) 0

/-! ## Judgement (R188) -/

/-- The signature and its complements. -/
def signature : List Byte := [0x4E, 0x57, 0xB1, 0xA8]

/-- The five checks of a VALID image (R188). -/
def Flash.passes (m : Flash) : Bool :=
  m.readAll 0 4 == signature
    && m.read 4 == 1
    && decide (m.seedCount ≤ Config.seedCapacity)
    && beNat (m.readAll 7 2) == 128
    && byteSum (m.readAll 0 (imageLength m.seedCount)) == 0

/-- The judgement of the image (R188). -/
def Flash.judge (m : Flash) : Validity :=
  if m.readAll 0 4 = [0xFF, 0xFF, 0xFF, 0xFF] then .blank
  else if m.passes then .valid
  else .corrupt

/-! ## Nibbles and bits -/

/-- The high and the low half of each byte, in order. -/
def nibbles (bytes : List Byte) : List Nat :=
  (bytes.map fun b => [b.toNat / 16, b.toNat % 16]).flatten

/-- Two halves as one byte. -/
def nibblePair (high low : Nat) : Byte := byteOf (16 * high + low)

/-- Eight 4-bit fields as four bytes. -/
def nibbleBytes : List Nat → List Byte
  | a :: b :: rest => nibblePair a b :: nibbleBytes rest
  | _ => []

/-- The field of `width` bits of a number from bit `low` up. -/
def field (n low width : Nat) : Nat := n / 2 ^ low % 2 ^ width

/-! ## Lane entries (R201) -/

/-- The width a W code names; 3 names none, and 0 stands for it (R201). -/
def widthOfCode : Nat → Nat
  | 0 => 1 | 1 => 2 | 2 => 4 | _ => 0

/-- The code of a width (R201). -/
def codeOfWidth (w : Nat) : Nat :=
  if w = 1 then 0 else if w = 2 then 1 else 2

/-- The select entries of a stored four-wire lane: roles beyond the stored count take probe 0 (R201). -/
def storedSelects (count : Nat) (sel : List Nat) : List Nat :=
  sel.take count ++ List.replicate (4 - count) 0

/-- The configuration bytes of the LANE-SET that a lane entry gives: fields and pin map entries of the other kinds at their
reset values (R201). -/
def entryConfig (e : List Byte) : List Byte :=
  let b0 := byteAt e 0
  let b1 := byteAt e 1
  let kind := field b0 6 2
  let n := nibbles (bytesAt e 2 4)
  let common := [kind, widthOfCode (field b0 4 2), field b0 3 1 + 1, field b0 2 1, field b0 1 1]
  let rest := match kind with
    | 1 => [field b1 0 1, 0, 0, 1, 0, 0, 0, 32] ++ n.take 2 ++ List.replicate 9 0
    | 2 =>
      [0, field b1 6 2, field b1 5 1, field b1 3 2 + 1, field b1 2 1, field b1 0 2, n.getD 7 0, 32]
        ++ [0, 0, n.getD 0 0] ++ storedSelects (field b1 3 2 + 1) (bytesAt' n 1 4) ++ [n.getD 5 0, n.getD 6 0, 0, 0]
    | 3 => [0, 0, 0, 1, 0, 0, 0, b1] ++ List.replicate 9 0 ++ n.take 2
    | _ => [0, 0, 0, 1, 0, 0, 0, 32] ++ List.replicate 11 0
  (common ++ rest).map byteOf
where
  /-- `n` numbers of a list from place `i`. -/
  bytesAt' (xs : List Nat) (i n : Nat) : List Nat := (xs.drop i).take n

/-- The eight 4-bit fields of a stored lane entry (R201). -/
def LaneConfig.entryFields (c : LaneConfig) : List Nat :=
  match c.kind with
  | .none => List.replicate 8 0
  | .twoWire => [c.pins.twoClock.val, c.pins.twoData.val] ++ List.replicate 6 0
  | .fourWire =>
    [c.pins.fourClock.val] ++ storedSelects c.selectCount (c.pins.sel.toList.map Fin.val)
      ++ [c.pins.cdat.val, c.pins.tdat.val, c.latency]
  | .management => [c.pins.mgmtClock.val, c.pins.mgmtData.val] ++ List.replicate 6 0

/-- Byte 1 of a stored lane entry (R201). -/
def LaneConfig.entryOptions (c : LaneConfig) : Nat :=
  match c.kind with
  | .none => 0
  | .twoWire => bitAt 0 c.tenBit
  | .fourWire =>
    64 * c.clockMode + 32 * c.bitOrder.code.toNat + 8 * (c.selectCount - 1) + 4 * c.polarity.code.toNat
      + c.autoinc.code.toNat
  | .management => c.preamble

/-- The 6-byte entry of a lane (R201). -/
def Lane.entry (l : Lane) : List Byte :=
  [byteOf (64 * l.cfg.kind.code.toNat + 16 * codeOfWidth l.cfg.w + 8 * (l.cfg.a - 1) + 4 * l.cfg.byteOrder.code.toNat
      + bitAt 1 l.cfg.activity + bitAt 0 l.enabled),
    byteOf l.cfg.entryOptions] ++ nibbleBytes l.cfg.entryFields

/-! ## Trap and row entries (R200) -/

/-- The window a 6-byte entry writes, when its values are accepted (R190, R200). -/
def entryTrap (e : List Byte) : Option Trap :=
  let n := natAt e 0 2
  trapOf (field n 14 2) (field n 10 2) (field n 0 10) (natAt e 2 2) (natAt e 4 2) (field n 12 2)

/-- The 6-byte entry of a window (R200). -/
def Trap.entry (t : Trap) : List Byte :=
  beBytes 2 (2 ^ 14 * t.mode.code.toNat + 2 ^ 12 * t.dir.code.toNat + 2 ^ 10 * t.lane.val + t.target.toNat)
    ++ beBytes 2 t.low ++ beBytes 2 t.high

/-- The row code of a 4-byte entry: 3 times the binding plus the format (R200). -/
def rowCode (e : List Byte) : Nat := field (natAt e 0 2) 10 4

/-- The 4-byte entry of a row (R200). -/
def Row.entry (r : Row) : List Byte :=
  beBytes 4 (beNat r.binding.argument + 2 ^ 26 * (3 * r.binding.code + r.format.code))

/-! ## Power, panel and attention bytes (R200) -/

/-- The four wake edges of one byte, the lowest probe's in the top bits (R200). -/
def byteEdges (b : Byte) : List Nat :=
  [field b.toNat 6 2, field b.toNat 4 2, field b.toNat 2 2, field b.toNat 0 2]

/-- Sixteen wake edges as four bytes (R200). -/
def edgeBytes : List Nat → List Byte
  | a :: b :: c :: d :: rest => byteOf (64 * a + 16 * b + 4 * c + d) :: edgeBytes rest
  | _ => []

/-- The operand bytes of the POWER-SET that a settings block gives (R190, R200). -/
def settingsPower (b : List Byte) : List Byte :=
  beBytes 2 (byteAt b 116) ++ beBytes 2 (byteAt b 117) ++ beBytes 2 (byteAt b 118)
    ++ ((bytesAt b 119 4).map byteEdges).flatten.map byteOf
    ++ [byteOf (field (byteAt b 124) 4 1), byteOf (field (byteAt b 124) 5 1), byteOf (field (byteAt b 124) 6 1)]

/-! ## The image a store composes (R193) -/

/-- The 128-byte settings block from the present values (R193, R200). -/
def State.settingsBlock (s : State) : List Byte :=
  (s.pfe.banks.toList.map fun b => [byteOf b.code, byteOf b.width]).flatten
    ++ (s.lanes.toList.map Lane.entry).flatten
    ++ (s.wta.traps.toList.map Trap.entry).flatten
    ++ (s.dse.rows.toList.map Row.entry).flatten
    ++ [byteOf s.pwu.dim, byteOf s.pwu.dark, byteOf s.pwu.sleep]
    ++ edgeBytes (s.pwu.wakeEdges.toList.map WakeEdge.code)
    ++ [nibblePair s.dse.runLevel s.dse.dimLevel,
        byteOf (s.dse.window + bitAt 4 s.pwu.holdkeyWake + bitAt 5 s.pwu.keyActivity + bitAt 6 s.pwu.linkActivity)]
    ++ setBytes s.wta.enables ++ [0]

/-- The record has a seed in a store image (R193). -/
def Record.qualifies (r : Record) : Bool := r.pinned || r.label.isSome || r.expectation.isSome

/-- The 32-byte seed of a record (R193, R200; log 20). -/
def Record.seedBytes (r : Record) : List Byte :=
  r.key.bytes ++ [byteOf r.width, byteOf (bitAt 0 r.pinned + bitAt 1 r.notify), boolByte r.expectation.isSome]
    ++ optWordBytes (r.expectation.map (·.expected)) ++ optWordBytes (r.expectation.map (·.mask))
    ++ [byteOf (r.label.getD []).length] ++ padRight 12 (r.label.getD []) ++ beBytes 4 0

/-- The image before its checksum: header with adjust byte 0, settings, seeds (R193). -/
def imageBody (settings : List Byte) (seeds : List Record) : List Byte :=
  signature ++ [1] ++ beBytes 2 seeds.length ++ beBytes 2 128 ++ [0] ++ List.replicate 6 0 ++ settings
    ++ (seeds.map Record.seedBytes).flatten

/-- The checksum adjust byte that brings the sum of the image to 0 modulo 256 (R193). -/
def adjustByte (body : List Byte) : Byte := - byteSum body

/-- The store image composed at the snapshot (R193). -/
def State.storeImage (s : State) : StoreImage :=
  let all := s.rte.table.filter Record.qualifies
  let seeds := all.take Config.seedCapacity
  let body := imageBody s.settingsBlock seeds
  ⟨body.set 9 (adjustByte body), seeds.length, decide (Config.seedCapacity < all.length)⟩

end Sys2Proof.Machine
end

