-- ==== Sys2Proof/Machine/Profile.lean ====
section
/-! DEFINITION. The Profile Image Controller: application of the settings block and of seeds, the stages of a store, and
the profile commands (chapter 11). -/

namespace Sys2Proof.Machine

/-! ## The settings block (R190) -/

/-- An item its command would refuse is not applied, and keeps its present value (R190). -/
def tryItem (f : State → Option State) (s : State) : State := (f s).getD s

/-- Item 1: the PROBE-SET of a bank, with 20 times the code in millivolts (R17, R190). -/
def bankItem (block : List Byte) (b : Fin 2) : BankRequest :=
  ⟨b, 20 * byteAt block (2 * b.val), byteAt block (2 * b.val + 1)⟩

/-- Item 2: a lane, as though by LANE-SET and then LANE-ENABLE; a refused configuration leaves the enable too (R190). -/
def settingsLane (block : List Byte) (i : Fin 4) (s : State) : State :=
  let e := bytesAt block (4 + 6 * i.val) 6
  tryItem (fun s => (parseLaneConfig (entryConfig e)).map fun c =>
    installEnable i (field (byteAt e 0) 0 1 = 1) (installConfig i c s)) s

/-- Item 3: a trap window, as though by TRAP-SET (R190). -/
def settingsTrap (block : List Byte) (i : Fin 4) (s : State) : State :=
  tryItem (fun s => (entryTrap (bytesAt block (28 + 6 * i.val) 6)).map fun t => writeTrap i t s) s

/-- Item 4: a view row, as though by VIEW-SET (R190). -/
def settingsRow (block : List Byte) (i : Fin 16) (s : State) : State :=
  let e := bytesAt block (52 + 4 * i.val) 4
  tryItem (viewSet (i.val + 1) (rowCode e / 3) (rowCode e % 3) e) s

/-- Items 5 and 6: the highlight window and the backlight levels (R190). -/
def settingsPanel (block : List Byte) (s : State) : State :=
  panelSet (field (byteAt block 123) 4 4) (field (byteAt block 123) 0 4) (viewOptions (field (byteAt block 124) 0 4) s)

/-- Items 7 and 8: the power settings and the attention enables (R190; log 17). -/
def settingsPower8 (block : List Byte) (s : State) : State :=
  tryItem (attnEnable (bytesAt block 125 2)) (tryItem (powerSet (settingsPower block)) s)

/-- The settings block applied, item by item in order (R190). The unit is one moment, so the edges that both banks' new settings
qualify at once reach the lanes as one change (R6, R17; log 26). -/
def applySettings (block : List Byte) (s : State) : State :=
  let s := applyBanks [bankItem block 0, bankItem block 1] s
  let s := [0, 1, 2, 3].foldl (fun s i => settingsLane block i s) s
  let s := [0, 1, 2, 3].foldl (fun s i => settingsTrap block i s) s
  let s := probeNumbers.foldl (fun s i => settingsRow block i s) s
  settingsPower8 block (settingsPanel block s)

/-! ## Seeds (R191) -/

/-- A seed entry (R191, R200). -/
structure SeedEntry where
  key : Key
  width : Nat
  pinned : Bool
  notify : Bool
  expectation : Option Expectation
  labelLength : Nat
  labelBytes : List Byte
  deriving DecidableEq, Repr

/-- The entry in 32 bytes (R200). -/
def parseSeed (e : List Byte) : SeedEntry :=
  { key := keyOf (bytesAt e 0 4)
    width := byteAt e 4
    pinned := (byteAt e 5).testBit 0
    notify := (byteAt e 5).testBit 1
    expectation := if (byteAt e 6).testBit 0 then some ⟨wordAt e 7, wordAt e 11⟩ else none
    labelLength := byteAt e 15
    labelBytes := bytesAt e 16 12 }

/-- The entry passes the four checks (R191). -/
def SeedEntry.passes (x : SeedEntry) (earlier : List Key) (s : State) : Bool :=
  let cfg := (s.lanes[x.key.lane]).cfg
  !earlier.contains x.key && keyFits cfg x.key && x.width == cfg.w
    && decide (x.labelLength ≤ 12) && (x.labelBytes.take x.labelLength).all printable

/-- The amendment a seed fixes (R191). -/
def SeedEntry.amendment (x : SeedEntry) : Amendment :=
  { clearDiverged := false, clearMismatched := false, clearChanges := false
    label := some (if x.labelLength = 0 then none else some (x.labelBytes.take x.labelLength))
    pinned := some x.pinned, notify := some x.notify, expectation := some x.expectation }

/-- A seed applied: `true` when it counts as loaded (R191). -/
def applySeed (x : SeedEntry) (earlier : List Key) (s : State) : State × Bool :=
  if x.passes earlier s then
    match lookup x.key s.rte.table with
    | some r => (amendRecord x.amendment r s, true)
    | none =>
      match admitKey x.key x.width s with
      | (s, true) => (amendRecord x.amendment (newRecord x.key x.width s.rte.epoch) s, true)
      | (s, false) => (s, false)
  else (s, false)

/-- The progress of a load after a seed (R187, R191). -/
def Load.seeded (k : Key) (applied : Bool) (l : Load) : Load :=
  { l with
    next := l.next + 1
    loaded := if applied then l.loaded + 1 else l.loaded
    skipped := if applied then l.skipped else l.skipped + 1
    keys := l.keys ++ [k] }

/-! ## Operations in flight -/

/-- The profile operation in flight. -/
def setOp (op : ProfileOp) (s : State) : State := s.setPim { s.pim with op }

/-- The load in flight, if any. -/
def State.load (s : State) : Option Load :=
  match s.pim.op with
  | .load l => some l
  | .none | .store _ => none

/-- An operation completes: the last outcome is set, PROFILE raised, and nothing is in flight (R187). -/
def completeOp (last : LastOutcome) (s : State) : State :=
  raise .profile (s.setPim { s.pim with op := .none, last := some last })

/-- A store completes (R194), and a deferred expiry of the sleep timer begins sleep entry (R187). -/
def completeStore (failed : Bool) (s : State) : State :=
  takeDeferred (completeOp (.store failed s.pim.image.seeds s.pim.image.truncated) s)

/-! ## The stages of a store (R194) -/

/-- A stage's effect, made while that stage is in flight (log 9). -/
def atStage (stage : StoreStage) (f : State → State) (s : State) : State :=
  if s.pim.op = .store stage then f s else s

/-- The flash changed by `f` and the store moved to its next stage. -/
def stageDone (next : StoreStage) (f : Flash → Flash) (s : State) : State :=
  s.setPim { s.pim with flash := f s.pim.flash, op := .store next }

/-- PROGRAM writes this offset of an image of this length (R194). -/
def programmed (length a : Nat) : Bool := a < 3 || (4 ≤ a && a < length)

/-- The flash after PROGRAM has written an image (R194). -/
def Flash.programImage (image : List Byte) (m : Flash) : Flash :=
  (m.writeAll 4 (image.drop 4)).writeAll 0 (image.take 3)

/-- The cells that did not take the byte written hold their own (log 8). -/
def Flash.withDefects (length : Nat) (defects : List Host.Cell) (m : Flash) : Flash :=
  (defects.filter fun d => programmed length d.1).foldl (fun m d => m.write d.1 d.2) m

/-- VERIFY reads back what PROGRAM wrote (R194). -/
def Flash.verifies (image : List Byte) (m : Flash) : Bool :=
  m.readAll 4 (image.length - 4) == image.drop 4 && m.readAll 0 3 == image.take 3

/-! ## Commands -/

/-- A scope operand of PROFILE-LOAD (R192). -/
def scopeOf (n : Nat) : Option LoadScope :=
  if n = 0 then some .seeds else if n = 1 then some .all else none

/-- PROFILE-LOAD is served (R192). -/
def serveProfileLoad (ops : List Byte) (s : State) : State × Answer :=
  match scopeOf (byteAt ops 0) with
  | none => (s, .refuse .badOperand)
  | some scope =>
    if profileBusy s then (s, .refuse .busy)
    else (setOp (.load (Load.start scope)) s, ⟨.ok, [byteOf (byteAt ops 0)]⟩)

/-- PROFILE-STORE is served: the snapshot, and the store begins (R193). -/
def serveProfileStore (s : State) : State × Answer :=
  if profileBusy s then (s, .refuse .busy)
  else
    let im := s.storeImage
    (s.setPim { s.pim with image := im, op := .store .invalidate },
      ⟨.ok, beBytes 2 im.seeds ++ [boolByte im.truncated]⟩)

/-- The store stage of PROFILE-STATUS, 0 unless STORE (R198). -/
def ProfileOp.stageByte : ProfileOp → Byte
  | .store st => st.code
  | .none | .load _ => 0

/-- The load progress of PROFILE-STATUS: present after the judgement (R195, R198). -/
def ProfileOp.progressBytes : ProfileOp → List Byte
  | .none | .store _ => List.replicate 6 0
  | .load l => match l.validity with
    | some v => [1, v.code] ++ beBytes 2 l.loaded ++ beBytes 2 l.skipped
    | .none => List.replicate 6 0

/-- The code of a load's kind in the last outcome (R196). -/
def LoadScope.kindCode : LoadScope → Byte
  | .startUp => 0 | .seeds => 1 | .all => 2

/-- The last outcome of PROFILE-STATUS (R195, R198). -/
def lastBytes : Option LastOutcome → List Byte
  | none => List.replicate 8 0
  | some (.load scope v loaded skipped) => [1, scope.kindCode, v.code] ++ beBytes 2 loaded ++ beBytes 2 skipped ++ [0]
  | some (.store failed seeds truncated) => [1, 3, boolByte failed] ++ beBytes 2 seeds ++ beBytes 2 0 ++ [boolByte truncated]

/-- PROFILE-STATUS is served (R195). -/
def serveProfileStatus (s : State) : State × Answer :=
  (s, ⟨.ok, [s.pim.op.code, s.pim.op.stageByte] ++ s.pim.op.progressBytes ++ lastBytes s.pim.last⟩)

end Sys2Proof.Machine
end

