-- ==== Sys2Proof/Machine/Reset.lean ====
section
/-! DEFINITION. Full reset and its release (R16, R37, R116, R157, R171, R181, R185, R187). -/

namespace Sys2Proof.Machine

/-- A full reset begins: every block takes its reset values and is held there. The input levels, the flash and the queue
stay. An event that comes while the part is already held changes nothing (R181; log 24). -/
def fullReset (cause : ResetCause) (s : State) : State :=
  if s.inReset then s
  else
    { pfe := Pfe.reset s.pfe.pins
      lanes := Vector.replicate 4 Lane.reset
      rte := Rte.reset false
      wta := Wta.reset
      dse := Dse.reset
      pwu := Pwu.reset s.pwu.keyLow none none
      ctl := Ctl.reset cause s.ctl.lselLow
      pim := Pim.reset .none s.pim.flash
      inReset := true
      pending := s.pending }

/-- The filters see the raw levels at the release (R16). -/
def releaseProbes (s : State) : State :=
  s.setPfe (s.pfe.filterWhere fun _ => true)

/-- The epoch and dim timers start, and a HOLDKEY input that is low starts a candidate (R86, R161, R171). -/
def releaseTimers (s : State) : State :=
  (s.setRte { s.rte with epochTimer := true }).setPwu
    { s.pwu with
      timer := startTimer .dim s.pwu.dim
      keyCandidate := if s.pwu.keyLow then some ⟨true, true⟩ else none }

/-- The full reset is released, and the start-up load begins (R187). -/
def resetRelease (s : State) : State :=
  if s.inReset then
    setOp (.load (Load.start .startUp)) (releaseTimers (releaseProbes { s with inReset := false }))
  else s

end Sys2Proof.Machine
end

