-- ==== Sys2Proof/Machine/Link.lean ====
section
/-! DEFINITION. The Control Link: owners, service, answers and their delivery, the taking of commands, and the transaction
(chapter 10), with the commands of the CTL, the DSE and the PWU that no other file serves. -/

namespace Sys2Proof.Machine

/-! ## Answers composed by the CTL, the DSE and the PWU -/

/-- The 15-byte identity (R182, R198). -/
def identityBytes (s : State) : List Byte :=
  beBytes 2 0x4C44 ++ beBytes 2 0x4E57 ++ beBytes 2 620 ++ [1, s.ctl.link.code] ++ beBytes 2 1024 ++ [4, 16, 8, 4, 16]

/-- The 8-byte status (R137, R198). -/
def statusBytes (s : State) : List Byte :=
  setBytes s.wta.causeSet ++ setBytes s.wta.enables
    ++ [s.ctl.link.code, s.pwu.power.code, boolByte s.rte.hold, s.pim.op.code]

/-- The 6-byte reset cause record (R181, R198). -/
def ResetRecord.bytes (r : ResetRecord) : List Byte :=
  [r.cause.code, r.result.code] ++ beBytes 2 r.loaded ++ beBytes 2 r.skipped

/-- VIEW-SET is served (R139, R198). -/
def serveViewSet (ops : List Byte) (s : State) : State × Answer :=
  match viewSet (byteAt ops 0) (byteAt ops 1) (byteAt ops 2) (bytesAt ops 3 4) s, rowOf (byteAt ops 0) with
  | some s, some i => (s, ⟨.ok, rowBytes i s.dse.rows[i]⟩)
  | _, _ => (s, .refuse .badOperand)

/-- VIEW-OPTIONS is served (R146, R198). -/
def serveViewOptions (ops : List Byte) (s : State) : State × Answer :=
  let s := viewOptions (byteAt ops 0) s
  (s, ⟨.ok, [byteOf s.dse.window]⟩)

/-- PANEL-SET is served (R156, R198). -/
def servePanelSet (ops : List Byte) (s : State) : State × Answer :=
  let s := panelSet (byteAt ops 0) (byteAt ops 1) s
  (s, ⟨.ok, [byteOf s.dse.runLevel, byteOf s.dse.dimLevel]⟩)

/-- POWER-SET is served (R168, R198). -/
def servePowerSet (ops : List Byte) (s : State) : State × Answer :=
  match powerSet ops s with
  | some s => (s, ⟨.ok, s.pwu.settingBytes⟩)
  | none => (s, .refuse .badOperand)

/-- The clear option's note: the members the answer reports (R169). -/
def noteWakeSources (s : State) : State :=
  s.setPwu { s.pwu with clearNote := some s.pwu.wakePending }

/-- POWER-STATUS is served (R169, R198). -/
def servePowerStatus (ops : List Byte) (s : State) : State × Answer :=
  match flagOf (byteAt ops 0) with
  | none => (s, .refuse .badOperand)
  | some clear =>
    (if clear then noteWakeSources s else s, ⟨.ok, s.pwu.power.code :: s.pwu.wakePending.bytes ++ s.pwu.settingBytes⟩)

/-- SLEEP is served (R170). -/
def serveSleep (s : State) : State × Answer :=
  if profileBusy s then (s, .refuse .busy) else (s, ⟨.ok, []⟩)

/-! ## Owners and service (R175) -/

/-- The block that serves a command; a LANE-STATUS, LANE-SET or LANE-ENABLE of a lane above 3 names no lane. -/
inductive Owner where
  | ctl | wta | pfe
  | lane (i : Option (Fin 4))
  | rte | dse | pwu | pim
  deriving DecidableEq, Repr

/-- The owner of a command with its operands (R175). -/
def ownerOf (c : Cmd) (ops : List Byte) : Owner :=
  match c with
  | .identify | .release | .status | .restart | .profileStatus => .ctl
  | .acknowledge | .attnEnable | .watchFree | .takeWatch | .trapRead => .wta
  | .probeSet | .probeRead => .pfe
  | .laneSet | .laneEnable | .laneStatus => .lane (laneOf (byteAt ops 0))
  | .lookup | .walk | .walkFrom | .seed | .amend | .retire | .clearTable | .tableInfo | .hold | .watchSet
  | .trapSet => .rte
  | .viewSet | .viewOptions | .panelSet => .dse
  | .powerSet | .powerStatus | .sleep => .pwu
  | .profileLoad | .profileStore => .pim

/-- The answer to a LANE-SET or LANE-ENABLE whose lane's request has been served (R19, R21). -/
def laneAnswer (f : Fin 4 → State → Answer) (ops : List Byte) (s : State) : State × Answer :=
  (s, (laneOf (byteAt ops 0)).elim (.refuse .badOperand) fun i => f i s)

/-- The owner serves a command: its effect and its answer. -/
def serve (c : Cmd) (ops : List Byte) (s : State) : State × Answer :=
  match c with
  | .identify => (s, ⟨.ok, identityBytes s⟩)
  | .release => (s, ⟨.ok, s.ctl.record.bytes⟩)
  | .status => (s, ⟨.ok, statusBytes s⟩)
  | .acknowledge => serveAcknowledge ops s
  | .attnEnable => serveAttnEnable ops s
  | .restart => (s, ⟨.ok, []⟩)
  | .probeSet => serveProbeSet ops s
  | .probeRead => serveProbeRead ops s
  | .laneSet => laneAnswer laneSetAnswer ops s
  | .laneEnable => laneAnswer laneEnableAnswer ops s
  | .laneStatus => serveLaneStatus ops s
  | .lookup => serveLookup ops s
  | .walk => serveWalk ops s
  | .walkFrom => serveWalkFrom ops s
  | .seed => serveSeed ops s
  | .amend => serveAmend ops s
  | .retire => serveRetire ops s
  | .clearTable => serveClearTable ops s
  | .tableInfo => serveTableInfo s
  | .hold => serveHold ops s
  | .watchSet => serveWatchSet ops s
  | .watchFree => serveWatchFree ops s
  | .takeWatch => serveTakeWatch ops s
  | .trapSet => serveTrapSet ops s
  | .trapRead => serveTrapRead ops s
  | .viewSet => serveViewSet ops s
  | .viewOptions => serveViewOptions ops s
  | .panelSet => servePanelSet ops s
  | .powerSet => servePowerSet ops s
  | .powerStatus => servePowerStatus ops s
  | .sleep => serveSleep s
  | .profileLoad => serveProfileLoad ops s
  | .profileStore => serveProfileStore s
  | .profileStatus => serveProfileStatus s

/-- The owner serves the command as soon as it is handed over: the commands served at once or with their effect at the
taking (log 11), and a RELEASE once the start-up load has completed (R180). -/
def readyAtOnce (c : Cmd) (ops : List Byte) (s : State) : Bool :=
  match c with
  | .release => startUpDone s
  | .laneStatus => (laneOf (byteAt ops 0)).isNone
  | .identify | .status | .acknowledge | .attnEnable | .restart | .probeSet | .watchFree | .takeWatch | .trapRead
  | .viewSet | .viewOptions | .panelSet | .powerSet | .powerStatus | .profileLoad | .profileStore
  | .profileStatus => true
  | .probeRead | .laneSet | .laneEnable | .lookup | .walk | .walkFrom | .seed | .amend | .retire | .clearTable
  | .tableInfo | .hold | .watchSet | .trapSet | .sleep => false

/-! ## Delivery and loss (R177, R178) -/

/-- Trap window `i` changed by `f`, in the part. -/
def modifyTrap (i : Fin 4) (f : Trap → Trap) (s : State) : State :=
  s.setWta { s.wta with traps := modifyAt s.wta.traps i f }

/-- Complete delivery of a WALK answer (R107). -/
def deliverWalk (s : State) : State :=
  s.setRte { s.rte with cursor := s.rte.walkNote.getD s.rte.cursor, walkNote := none }

/-- Complete delivery of a POWER-STATUS answer (R169). -/
def deliverWakeSources (s : State) : State :=
  s.setPwu { s.pwu with
    wakePending := s.pwu.clearNote.elim s.pwu.wakePending s.pwu.wakePending.minus, clearNote := none }

/-- Complete delivery of a RELEASE answer: a HELD link becomes READY (R180). -/
def deliverRelease (s : State) : State := s.setCtl { s.ctl with link := .ready }

/-- The consuming effect of an OK answer that is completely delivered (R178). -/
def deliver (c : Cmd) (ops : List Byte) (s : State) : State :=
  match c with
  | .takeWatch => (slotOf (byteAt ops 0)).elim s fun i => modifySlot i Slot.delivered s
  | .walk => deliverWalk s
  | .probeRead => deliverGlitches s
  | .laneStatus => (laneOf (byteAt ops 0)).elim s fun i => modifyLane i Lane.deliverFlags s
  | .trapRead => (windowOf (byteAt ops 0)).elim s fun i => modifyTrap i Trap.delivered s
  | .powerStatus => deliverWakeSources s
  | .release => deliverRelease s
  | .identify | .status | .acknowledge | .attnEnable | .restart | .probeSet | .laneSet | .laneEnable | .lookup
  | .walkFrom | .seed | .amend | .retire | .clearTable | .tableInfo | .hold | .watchSet | .watchFree | .trapSet
  | .viewSet | .viewOptions | .panelSet | .powerSet | .sleep | .profileLoad | .profileStore | .profileStatus => s

/-- A window whose TRAP-READ answer is lost (R131). -/
def Trap.lost (t : Trap) : Trap := { t with clearNote := none }

/-- The loss of an OK answer: the owner drops its notes (R178). -/
def failDelivery (c : Cmd) (ops : List Byte) (s : State) : State :=
  match c with
  | .takeWatch => (slotOf (byteAt ops 0)).elim s fun i => modifySlot i Slot.lost s
  | .walk => s.setRte { s.rte with walkNote := none }
  | .probeRead => dropGlitchNotes s
  | .laneStatus => (laneOf (byteAt ops 0)).elim s fun i => modifyLane i Lane.dropNotes s
  | .trapRead => (windowOf (byteAt ops 0)).elim s fun i => modifyTrap i Trap.lost s
  | .powerStatus => s.setPwu { s.pwu with clearNote := none }
  | .identify | .release | .status | .acknowledge | .attnEnable | .restart | .probeSet | .laneSet | .laneEnable
  | .lookup | .walkFrom | .seed | .amend | .retire | .clearTable | .tableInfo | .hold | .watchSet | .watchFree
  | .trapSet | .viewSet | .viewOptions | .panelSet | .powerSet | .sleep | .profileLoad | .profileStore
  | .profileStatus => s

/-- What an OK answer leaves when LSEL rose before the command was served: RESTART and SLEEP act now (log 12), and the
notes of the composed answer are dropped (R177). -/
def afterCut (c : Cmd) (ops : List Byte) (s : State) : State :=
  match c with
  | .restart => fullReset .command s
  | .sleep => beginSleepEntry s
  | .identify | .release | .status | .acknowledge | .attnEnable | .probeSet | .probeRead | .laneSet | .laneEnable
  | .laneStatus | .lookup | .walk | .walkFrom | .seed | .amend | .retire | .clearTable | .tableInfo | .hold
  | .watchSet | .watchFree | .takeWatch | .trapSet | .trapRead | .viewSet | .viewOptions | .panelSet | .powerSet
  | .powerStatus | .profileLoad | .profileStore | .profileStatus => failDelivery c ops s

/-! ## Answering -/

/-- The answer begins with START in the next byte cell (R176). An OK answer to RESTART or SLEEP leaves its effect for the
rise of LSEL (R170, R183). -/
def sendAnswer (c : Option Cmd) (a : Answer) (s : State) : State :=
  s.setCtl { s.ctl with
    phase := .answer
    txn := { s.ctl.txn with
      answer := a.bytes, sent := 0
      restarts := c = some .restart && a.status = .ok
      sleeps := c = some .sleep && a.status = .ok } }

/-- An answer is sent, or, when its transaction was cut, composed and dropped (R177). -/
def respond (c : Cmd) (ops : List Byte) (cut : Bool) (a : Answer) (s : State) : State :=
  if cut then (if a.status = .ok then afterCut c ops s else s) else sendAnswer (some c) a s

/-- A refusal by a link-level check (R174). -/
def refuseCommand (cut : Bool) (st : Status) (s : State) : State :=
  if cut then s else sendAnswer none (.refuse st) s

/-! ## Commands waiting for their owner -/

/-- The earliest command waiting for an owner (R177). -/
def firstWaiting (o : Owner) (s : State) : Option Waiting :=
  s.ctl.waiting.find? fun w => ownerOf w.cmd w.operands = o

/-- A command joins those waiting; its own transaction, when still open, sends WAIT bytes (R176). -/
def enqueue (w : Waiting) (s : State) : State :=
  s.setCtl { s.ctl with
    waiting := s.ctl.waiting ++ [w]
    phase := if w.cut then s.ctl.phase else .waiting }

/-- A command waits no longer. -/
def dequeue (w : Waiting) (s : State) : State :=
  s.setCtl { s.ctl with waiting := s.ctl.waiting.erase w }

/-- A waiting command is served and answered. -/
def serveWaiting (w : Waiting) (s : State) : State :=
  let r := serve w.cmd w.operands (dequeue w s)
  respond w.cmd w.operands w.cut r.2 r.1

/-- The commands at the front of an owner's queue that it serves as soon as they are handed to it, up to a count. A command
served at once or at its taking is among them, and waits behind an earlier one of its owner that waits (R177; log 13). -/
def advance (o : Owner) : Nat → State → State
  | 0, s => s
  | n + 1, s =>
    match firstWaiting o s with
    | none => s
    | some w => if readyAtOnce w.cmd w.operands s then advance o n (serveWaiting w s) else s

/-- `advance` over the whole queue. -/
def advanceAll (o : Owner) (s : State) : State :=
  advance o s.ctl.waiting.length s

/-- A command goes to its owner: behind an earlier one of the same owner, or served at once where it can be (R177). -/
def toOwner (c : Cmd) (ops : List Byte) (cut : Bool) (s : State) : State :=
  advanceAll (ownerOf c ops) (enqueue ⟨c, ops, cut⟩ s)

/-- A LANE-SET or LANE-ENABLE is taken by its lane at once; an accepted one waits for the request it raised (R176, R177). -/
def toLane (c : Cmd) (ops : List Byte) (cut : Bool) (r : Except Status State) (s : State) : State :=
  match r with
  | .error st => refuseCommand cut st s
  | .ok s => enqueue ⟨c, ops, cut⟩ s

/-- The taking of a command is an activity event while link activity is yes (R160, R174). -/
def takingActivity (s : State) : State := activityIf s.pwu.linkActivity s

/-- A command that has passed the link-level checks goes to its owner, its activity event first; that of a POWER-SET
follows its write, or its taking where a cut SLEEP keeps the write waiting (R168, R174, R177; log 28). -/
def handOver (c : Cmd) (ops : List Byte) (cut : Bool) (s : State) : State :=
  match c with
  | .laneSet => let s := takingActivity s; toLane .laneSet ops cut (takeLaneSet ops s) s
  | .laneEnable => let s := takingActivity s; toLane .laneEnable ops cut (takeLaneEnable ops s) s
  | .powerSet => takingActivity (toOwner .powerSet ops cut s)
  | .identify | .release | .status | .acknowledge | .attnEnable | .restart | .probeSet | .probeRead | .laneStatus
  | .lookup | .walk | .walkFrom | .seed | .amend | .retire | .clearTable | .tableInfo | .hold | .watchSet
  | .watchFree | .takeWatch | .trapSet | .trapRead | .viewSet | .viewOptions | .panelSet | .powerStatus | .sleep
  | .profileLoad | .profileStore | .profileStatus => toOwner c ops cut (takingActivity s)

/-! ## Byte cells -/

/-- The first cell of a transaction as LSEL falls: LCLK is low and the first bit of 0xFF is presented (R172, R173). -/
def Cell.first : Cell := ⟨[], false, 0xFF, false⟩

/-- A cell at its eighth rising edge: its eight bits are taken (R172). -/
def Cell.complete (out : Byte) (answers : Bool) : Cell := ⟨[], true, out, answers⟩

/-! ## Taking (R174) -/

/-- The link-level checks, in their order: the command to hand over, or the refusal (R174, R179). -/
def linkCheck (byte : Byte) (f : Frame) (link : LinkState) : Except Status Cmd :=
  match Cmd.ofByte byte with
  | none => .error .unknown
  | some c =>
    if link = .held ∧ c ≠ .identify ∧ c ≠ .release then .error .held
    else if f.len.toNat ≠ c.operandLength then .error .badOperand
    else .ok c

/-- A command is judged and handed over. Its taking aborts a sleep entry in flight, whatever the link activity (R164). -/
def judge (byte : Byte) (f : Frame) (cut : Bool) (s : State) : State :=
  let s := abortSleepEntry s
  match linkCheck byte f s.ctl.link with
  | .error st => refuseCommand cut st (takingActivity s)
  | .ok c => handOver c f.operands cut s

/-- The transaction record of a command that is taken. -/
def Txn.ofFrame (byte : Byte) (f : Frame) : Txn :=
  { Txn.empty with command := some byte, len := some f.len, operands := f.operands }

/-- A command is taken at the eighth rising edge of a cell that carries 0xFF; while wake is in flight every effect of its
taking waits for the completion of wake (R167, R173, R174). -/
def take (byte : Byte) (f : Frame) (s : State) : State :=
  let s := s.setCtl { s.ctl with txn := Txn.ofFrame byte f, cell := some (Cell.complete 0xFF false) }
  if s.pwu.power = .sleep then
    s.setCtl { s.ctl with deferred := s.ctl.deferred ++ [⟨byte, f, false⟩], phase := .waiting }
  else judge byte f false s

/-- The commands taken while wake was in flight are taken now, in their order; a full reset loses the rest (R167). -/
def takeDeferredCommands (s : State) : State :=
  s.ctl.deferred.foldl (fun s d => if s.inReset then s else judge d.command d.frame d.cut s)
    (s.setCtl { s.ctl with deferred := [] })

/-- The bits of a byte in the order the link carries them (R172). -/
def byteBits (b : Byte) : List Bool :=
  [b.getLsbD 7, b.getLsbD 6, b.getLsbD 5, b.getLsbD 4, b.getLsbD 3, b.getLsbD 2, b.getLsbD 1, b.getLsbD 0]

/-- The bits of the command frame received so far, those of the cell in progress among them. -/
def Ctl.received (c : Ctl) : List Bool :=
  (c.txn.command.toList ++ c.txn.len.toList ++ c.txn.operands).flatMap byteBits ++ c.cell.elim [] Cell.bits

/-- A phase in which the command frame is being received (R173). -/
def Phase.receives : Phase → Bool
  | .command | .length | .operands => true
  | .closed | .waiting | .answer | .trailer => false

/-- The frame of a command completes in the open transaction: the bits received so far begin it, and the clock edges up to
the one that takes it follow (R172 to R174; log 2). -/
def commandTaken (byte : Byte) (f : Frame) (s : State) : State :=
  if s.ctl.lselLow ∧ s.ctl.phase.receives ∧ f.wellFormed ∧ s.ctl.received.isPrefixOf ((f.bytes byte).flatMap byteBits) then
    take byte f s
  else s

/-! ## Service of a waiting command -/

/-- The waiting command that an owner serves next is this one. -/
def nextServed (c : Cmd) (f : Frame) (s : State) : Option Waiting :=
  (firstWaiting (ownerOf c f.operands) s).filter fun w =>
    w.cmd = c && w.operands = f.operands && f.len.toNat = c.operandLength

/-- A waiting command is served, and the next ones of its owner are handed over (R176, R177). -/
def serveNext (w : Waiting) (s : State) : State :=
  advanceAll (ownerOf w.cmd w.operands) (serveWaiting w s)

/-- The owner serves the command, at the LINK position for the commands of the RTE (R89, R176). In SLEEP no owner serves
(log 19). -/
def commandServed (c : Cmd) (f : Frame) (s : State) : State :=
  match nextServed c f s with
  | none => s
  | some w =>
    if s.pwu.power = .sleep then s
    else if atLink c then unitAt .link (serveNext w) s
    else serveNext w s

/-- A command with its two moments (log 2). -/
def commandAt (m : Moment) (c : Cmd) (f : Frame) (s : State) : State :=
  match m with
  | .taken => commandTaken c.code f s
  | .served => commandServed c f s

/-- A waiting command is a LANE-SET or LANE-ENABLE of lane `i`. -/
def Waiting.awaitsLane (i : Fin 4) (w : Waiting) : Bool :=
  (w.cmd = .laneSet || w.cmd = .laneEnable) && laneOf (byteAt w.operands 0) = some i

/-- The request of lane `i` has been served: the commands that wait for it are answered (R19, R21, R31). -/
def answerLane (i : Fin 4) (s : State) : State :=
  (s.ctl.waiting.filter (Waiting.awaitsLane i)).foldl (fun s w => serveWaiting w s) s

/-! ## What the cells carry (R172, R173) -/

/-- The command whose OK answer the transaction carries. -/
def Txn.answered (t : Txn) : Option Cmd :=
  if t.answer.getD 1 0xFF = Status.ok.code then t.command.bind Cmd.ofByte else none

/-- The last byte of the answer has been sent: the trailer follows, and the owner learns of complete delivery (R177,
R178). -/
def completeAnswer (s : State) : State :=
  let t := s.ctl.txn
  let s := s.setCtl { s.ctl with
    phase := .trailer, cell := some (Cell.complete (t.answer.getLastD 0xFF) true)
    txn := { t with sent := t.answer.length } }
  t.answered.elim s fun c => deliver c t.operands s

/-- A byte cell that carried a byte of the answer completes (R176, R177). -/
def answerByteSent (s : State) : State :=
  if s.ctl.txn.sent + 1 < s.ctl.txn.answer.length then
    s.setCtl { s.ctl with txn := { s.ctl.txn with sent := s.ctl.txn.sent + 1 } }
  else completeAnswer s

/-- A byte cell completes at its eighth rising edge, the host's byte being `b` (R173). -/
def cellCompletes (b : Byte) (c : Cell) (s : State) : State :=
  let s := s.setCtl { s.ctl with cell := some (Cell.complete c.out c.answers) }
  let t := s.ctl.txn
  match s.ctl.phase with
  | .closed | .waiting | .trailer => s
  | .command => s.setCtl { s.ctl with phase := .length, txn := { t with command := some b } }
  | .length =>
    if b = 0 ∨ 64 < b.toNat then take (t.command.getD 0) ⟨b, []⟩ s
    else s.setCtl { s.ctl with phase := .operands, txn := { t with len := some b } }
  | .operands =>
    if t.operands.length + 1 < (t.len.getD 0).toNat then
      s.setCtl { s.ctl with txn := { t with operands := t.operands ++ [b] } }
    else take (t.command.getD 0) ⟨t.len.getD 0, t.operands ++ [b]⟩ s
  | .answer => if c.answers then answerByteSent s else s

/-- The byte the next cell carries, by the phase: 0xFF, WAIT, or the next byte of the answer, which is marked (R173,
R176). -/
def Ctl.nextOut (c : Ctl) : Byte × Bool :=
  match c.phase with
  | .closed | .command | .length | .operands | .trailer => (0xFF, false)
  | .waiting => (0x00, false)
  | .answer => (c.txn.answer.getD c.txn.sent 0xFF, true)

/-- LCLK falls: the next bit is presented, the first one of the next byte after a cell that is complete (R172, R176). -/
def Cell.fall (next : Byte × Bool) (c : Cell) : Cell :=
  if c.clock then (if c.bits = [] then ⟨[], false, next.1, next.2⟩ else { c with clock := false }) else c

/-- LCLK falls with LSEL low (R172). -/
def clockFalls (s : State) : State :=
  s.setCtl { s.ctl with cell := s.ctl.cell.map (Cell.fall s.ctl.nextOut) }

/-- LCLK rises with LSEL low: one bit is taken from LDI, and the eighth completes the cell (R172). -/
def clockRises (ldi : Bool) (s : State) : State :=
  match s.ctl.cell with
  | none => s
  | some c =>
    if c.clock then s
    else if c.bits.length < 7 then s.setCtl { s.ctl with cell := some { c with bits := c.bits ++ [ldi], clock := true } }
    else cellCompletes (byteOf (bitsNat (c.bits ++ [ldi]))) c s

/-- The edges a byte cell still lacks come with nothing between them, the host's byte being `b`, of which the bits taken
are the first (R172). -/
def wholeCell (b : Byte) (s : State) : State :=
  match s.ctl.cell with
  | none => s
  | some c =>
    if c.bits.isPrefixOf (byteBits b) then cellCompletes b (c.fall s.ctl.nextOut) s else s

/-- A byte cell, or one of its clock edges, with LSEL low. After a reset released with LSEL low no cell is in progress, LDO is
not driven, and nothing is framed until LSEL has risen and fallen (R172, R173, R185; log 23). -/
def byteCell (p : CellPart) (s : State) : State :=
  if s.ctl.lselLow then
    match p with
    | .whole b => wholeCell b s
    | .rise ldi => clockRises ldi s
    | .fall => clockFalls s
  else s

/-- The rest of the answer is clocked out with LSEL low (R177). -/
def clockOutAnswer (s : State) : State :=
  if s.ctl.lselLow ∧ s.ctl.phase = .answer then completeAnswer s else s

/-! ## LSEL -/

/-- The LSEL input takes a level. -/
def setLsel (low : Bool) (s : State) : State := s.setCtl { s.ctl with lselLow := low }

/-- LSEL falls: a transaction opens, a sleep entry in flight is aborted, and in SLEEP it is a wake event (R164, R166,
R173). -/
def lselFalls (s : State) : State :=
  if s.ctl.lselLow then s
  else
    wakeEvent .lsel (abortSleepEntry
      (s.setCtl { s.ctl with lselLow := true, phase := .command, txn := Txn.empty, cell := some Cell.first }))

/-- The transaction ends: the record is dropped, and a command still waiting goes on without it (R173, R177). -/
def closeTransaction (s : State) : State :=
  s.setCtl { s.ctl with
    lselLow := false, phase := .closed, txn := Txn.empty, cell := none
    waiting := s.ctl.waiting.map fun w => { w with cut := true }
    deferred := s.ctl.deferred.map fun d => { d with cut := true } }

/-- The loss of an answer that has begun and is not completely delivered (R177, R178). -/
def loseAnswer (t : Txn) (ph : Phase) (s : State) : State :=
  if ph = .answer then t.answered.elim s fun c => failDelivery c t.operands s else s

/-- What an OK answer to RESTART or SLEEP leaves for the rise of LSEL (R170, R183). -/
def afterRise (t : Txn) (s : State) : State :=
  if t.restarts then fullReset .command s else if t.sleeps then beginSleepEntry s else s

/-- LSEL rises (R173, R177, R178). -/
def lselRises (s : State) : State :=
  if s.ctl.lselLow then afterRise s.ctl.txn (loseAnswer s.ctl.txn s.ctl.phase (closeTransaction s)) else s

end Sys2Proof.Machine
end

