-- ==== Sys2Proof/Machine/Completion.lean ====
section
/-! DEFINITION. The units and completions that answer waiting commands: lane requests (R100), loads (R188 to R191), the
stages of a store (R194) and the completion of wake (R167). -/

namespace Sys2Proof.Machine

/-! ## Lane requests -/

/-- A lane request of one kind is served: its effect `f`, and the answers that waited for it (R31, R100). -/
def serveRequest (kind : LaneRequest) (i : Fin 4) (f : State → State) (s : State) : State :=
  if (s.lanes[i]).request = some kind then
    unitAt (.lane i) (fun s => answerLane i (clearRequest i (f s))) s
  else s

/-! ## Loads -/

/-- The reset cause record takes the start-up load's result (R181). -/
def setResetRecord (v : Validity) (loaded skipped : Nat) (s : State) : State :=
  s.setCtl { s.ctl with record := { s.ctl.record with result := v, loaded, skipped } }

/-- The panel comes ON at the completion of the start-up load in RUN or DIM (R155, R189). -/
def panelAfterStartUp (s : State) : State :=
  if s.pwu.power = .run ∨ s.pwu.power = .dim then panelTurnOn s else s

/-- What only the start-up load does at its completion: a waiting RELEASE is served, and the panel comes ON (R189). -/
def startUpCompleted (s : State) : State :=
  panelAfterStartUp (advanceAll .ctl s)

/-- A load completes with this progress and result (R187, R189, R192). -/
def completeLoad (l : Load) (v : Validity) (s : State) : State :=
  let done := completeOp (.load l.scope v l.loaded l.skipped)
  match l.scope with
  | .startUp => takeDeferred (startUpCompleted (done (setResetRecord v l.loaded l.skipped s)))
  | .seeds | .all => takeDeferred (done s)

/-- The seeds of a load come next; with none the load completes (R189). -/
def seedsNext (l : Load) (s : State) : State :=
  if l.next < s.pim.flash.seedCount then setOp (.load { l with stage := .seeding }) s else completeLoad l .valid s

/-- The image has been read and is judged (R188, R189, R192). -/
def imageJudged (s : State) : State :=
  match s.load with
  | none => s
  | some l =>
    if l.stage = .reading then
      let v := s.pim.flash.judge
      let l := { l with validity := some v }
      if v ≠ .valid then completeLoad l v s
      else if l.scope = .seeds then seedsNext l s
      else setOp (.load { l with stage := .settings }) s
    else s

/-- The settings block is served (R190). -/
def settingsServed (s : State) : State :=
  match s.load with
  | none => s
  | some l =>
    if l.stage = .settings then
      unitAt .profile (fun s => seedsNext l (applySettings s.pim.flash.settings s)) s
    else s

/-- One seed is served, and after the last one the load completes (R189, R191). -/
def seedServed (s : State) : State :=
  match s.load with
  | none => s
  | some l =>
    if l.stage = .seeding then
      unitAt .profile (fun s =>
        let x := parseSeed (s.pim.flash.seed l.next)
        let r := applySeed x l.keys s
        seedsNext (l.seeded x.key r.2) r.1) s
    else s

/-! ## Store stages -/

/-- INVALIDATE completes (R194). -/
def storeInvalidate (s : State) : State :=
  atStage .invalidate (stageDone .erase fun m => m.write 3 0x00) s

/-- ERASE completes (R194). -/
def storeErase (s : State) : State :=
  atStage .erase (stageDone .program fun m => m.eraseRange 4 (Config.flashSize - 1)) s

/-- PROGRAM completes (R194; log 8). -/
def storeProgram (defects : List Host.Cell) (s : State) : State :=
  atStage .program
    (stageDone .verify fun m =>
      (m.programImage s.pim.image.bytes).withDefects s.pim.image.bytes.length defects) s

/-- VERIFY completes: any difference fails the store (R194). -/
def storeVerify (s : State) : State :=
  atStage .verify (fun s => if s.pim.flash.verifies s.pim.image.bytes then setOp (.store .commit) s
    else completeStore true s) s

/-- COMMIT completes, and the store with it (R194). -/
def storeCommit (s : State) : State :=
  atStage .commit (fun s => completeStore false (s.setPim { s.pim with flash := s.pim.flash.write 3 0xA8 })) s

/-! ## Wake -/

/-- Wake completes (R167). -/
def wakeCompletes (s : State) : State :=
  if s.pwu.op = .wake then takeDeferredCommands (wakeSteps s) else s

/-! ## Input levels -/

/-- The HOLDKEY input changes its level (R161). -/
def holdkeyChanges (low : Bool) (s : State) : State :=
  s.setPwu (s.pwu.keyInput low)

/-- The HOLDKEY input while a full reset is held: only its level is followed (log 24). -/
def holdkeyHeld (low : Bool) (s : State) : State :=
  s.setPwu { s.pwu with keyLow := low }

/-- The probe pins while a full reset is held: only their voltages are followed (log 24). -/
def pinsHeld (changes : List PinChange) (s : State) : State :=
  s.setPfe (s.pfe.withPins changes)

/-- The outcome of a change of an input level: while a full reset is held only the level is followed (log 24). -/
def liveInput (held f : State → State) (s : State) : Host.Outcome State Fault Refusal :=
  .next (if s.inReset then held s else settle (f s))

/-- The outcome of an event of a full reset, which acts in every state (R181). -/
def always (f : State → State) (s : State) : Host.Outcome State Fault Refusal :=
  .next (f s)

end Sys2Proof.Machine
end

