-- ==== Sys2Proof/Machine/Commands.lean ====
section
/-! DEFINITION. The meanings of the link commands, one definition per row of the opcode table (R174 to R176). -/

namespace Sys2Proof.Machine

/-- What a command answers. -/
abbrev Result := Host.Outcome State Fault Refusal

/-- IDENTIFY is taken (R182). -/
def execIdentify (f : Frame) (s : State) : Result :=
  live (commandTaken Cmd.identify.code f) s

/-- RELEASE is taken (R180). -/
def execRelease (f : Frame) (s : State) : Result :=
  live (commandTaken Cmd.release.code f) s

/-- STATUS is taken (R137). -/
def execStatus (f : Frame) (s : State) : Result :=
  live (commandTaken Cmd.status.code f) s

/-- ACKNOWLEDGE is taken (R134). -/
def execAcknowledge (f : Frame) (s : State) : Result :=
  live (commandTaken Cmd.acknowledge.code f) s

/-- ATTN-ENABLE is taken (R135). -/
def execAttnEnable (f : Frame) (s : State) : Result :=
  live (commandTaken Cmd.attnEnable.code f) s

/-- RESTART is taken (R183). -/
def execRestart (f : Frame) (s : State) : Result :=
  live (commandTaken Cmd.restart.code f) s

/-- PROBE-SET is taken (R9, R10). -/
def execProbeSet (f : Frame) (s : State) : Result :=
  live (commandTaken Cmd.probeSet.code f) s

/-- PROBE-READ is taken, or served in its turn (R11, R12). -/
def execProbeRead (m : Moment) (f : Frame) (s : State) : Result :=
  live (commandAt m .probeRead f) s

/-- LANE-SET is taken (R19, R20). -/
def execLaneSet (f : Frame) (s : State) : Result :=
  live (commandTaken Cmd.laneSet.code f) s

/-- LANE-ENABLE is taken (R21). -/
def execLaneEnable (f : Frame) (s : State) : Result :=
  live (commandTaken Cmd.laneEnable.code f) s

/-- LANE-STATUS is taken, or served in its turn (R30). -/
def execLaneStatus (m : Moment) (f : Frame) (s : State) : Result :=
  live (commandAt m .laneStatus f) s

/-- LOOKUP is taken, or served in its turn (R104). -/
def execLookup (m : Moment) (f : Frame) (s : State) : Result :=
  live (commandAt m .lookup f) s

/-- WALK is taken, or served in its turn (R106, R107). -/
def execWalk (m : Moment) (f : Frame) (s : State) : Result :=
  live (commandAt m .walk f) s

/-- WALK-FROM is taken, or served in its turn (R105). -/
def execWalkFrom (m : Moment) (f : Frame) (s : State) : Result :=
  live (commandAt m .walkFrom f) s

/-- SEED is taken, or served in its turn (R108, R109). -/
def execSeed (m : Moment) (f : Frame) (s : State) : Result :=
  live (commandAt m .seed f) s

/-- AMEND is taken, or served in its turn (R110, R111). -/
def execAmend (m : Moment) (f : Frame) (s : State) : Result :=
  live (commandAt m .amend f) s

/-- RETIRE is taken, or served in its turn (R112). -/
def execRetire (m : Moment) (f : Frame) (s : State) : Result :=
  live (commandAt m .retire f) s

/-- CLEAR-TABLE is taken, or served in its turn (R113). -/
def execClearTable (m : Moment) (f : Frame) (s : State) : Result :=
  live (commandAt m .clearTable f) s

/-- TABLE-INFO is taken, or served in its turn (R114). -/
def execTableInfo (m : Moment) (f : Frame) (s : State) : Result :=
  live (commandAt m .tableInfo f) s

/-- HOLD is taken, or served in its turn (R101). -/
def execHold (m : Moment) (f : Frame) (s : State) : Result :=
  live (commandAt m .hold f) s

/-- WATCH-SET is taken, or served in its turn (R119). -/
def execWatchSet (m : Moment) (f : Frame) (s : State) : Result :=
  live (commandAt m .watchSet f) s

/-- WATCH-FREE is taken (R120). -/
def execWatchFree (f : Frame) (s : State) : Result :=
  live (commandTaken Cmd.watchFree.code f) s

/-- TAKE-WATCH is taken (R122). -/
def execTakeWatch (f : Frame) (s : State) : Result :=
  live (commandTaken Cmd.takeWatch.code f) s

/-- TRAP-SET is taken, or served in its turn (R130). -/
def execTrapSet (m : Moment) (f : Frame) (s : State) : Result :=
  live (commandAt m .trapSet f) s

/-- TRAP-READ is taken (R131). -/
def execTrapRead (f : Frame) (s : State) : Result :=
  live (commandTaken Cmd.trapRead.code f) s

/-- VIEW-SET is taken (R139). -/
def execViewSet (f : Frame) (s : State) : Result :=
  live (commandTaken Cmd.viewSet.code f) s

/-- VIEW-OPTIONS is taken (R146). -/
def execViewOptions (f : Frame) (s : State) : Result :=
  live (commandTaken Cmd.viewOptions.code f) s

/-- PANEL-SET is taken (R156). -/
def execPanelSet (f : Frame) (s : State) : Result :=
  live (commandTaken Cmd.panelSet.code f) s

/-- POWER-SET is taken (R168). -/
def execPowerSet (f : Frame) (s : State) : Result :=
  live (commandTaken Cmd.powerSet.code f) s

/-- POWER-STATUS is taken (R169). -/
def execPowerStatus (f : Frame) (s : State) : Result :=
  live (commandTaken Cmd.powerStatus.code f) s

/-- SLEEP is taken, or served in its turn (R170). -/
def execSleep (m : Moment) (f : Frame) (s : State) : Result :=
  live (commandAt m .sleep f) s

/-- PROFILE-LOAD is taken (R192). -/
def execProfileLoad (f : Frame) (s : State) : Result :=
  live (commandTaken Cmd.profileLoad.code f) s

/-- PROFILE-STORE is taken (R193). -/
def execProfileStore (f : Frame) (s : State) : Result :=
  live (commandTaken Cmd.profileStore.code f) s

/-- PROFILE-STATUS is taken (R195). -/
def execProfileStatus (f : Frame) (s : State) : Result :=
  live (commandTaken Cmd.profileStatus.code f) s

end Sys2Proof.Machine
end

