-- ==== Sys2Proof/Machine/Events.lean ====
section
/-! DEFINITION. The meanings of the events of the part, one definition per row of the opcode table: edges, units of the RTE,
timer expiries, completions and resets. -/

namespace Sys2Proof.Machine

/-- The refresh in flight has a ranking slice to serve (R149). -/
def rankingWaits (s : State) : Bool :=
  match s.dse.refresh with
  | none => false
  | some r => match r.phase with
    | .ranking .. => true
    | .drawing .. | .sending => false

/-- The refresh in flight has a drawing slice to serve (R150). -/
def drawingWaits (s : State) : Bool :=
  match s.dse.refresh with
  | none => false
  | some r => match r.phase with
    | .drawing .. => true
    | .ranking .. | .sending => false

/-- A slice of the refresh at the DISPLAY position (R89). -/
def displayUnit (waits : State → Bool) (f : State → State) (s : State) : State :=
  if waits s then unitAt .display f s else s

/-- The release of the full reset, after which the RTE takes up its first unit, if any. -/
def resetReleaseSettled (s : State) : State :=
  if s.inReset then settle (resetRelease s) else s

/-- A command byte that names no command is taken and answered UNKNOWN (R174). -/
def execUnknownCommand (byte : Byte) (f : Frame) (s : State) : Result :=
  live (commandTaken byte f) s

/-- LSEL falls (R164, R166, R173). -/
def execLselFallingEdge (s : State) : Result :=
  liveInput (setLsel true) lselFalls s

/-- LSEL rises (R173, R177, R178). -/
def execLselRisingEdge (s : State) : Result :=
  liveInput (setLsel false) lselRises s

/-- The rest of the answer is clocked out (R177, R178). -/
def execCompleteDelivery (s : State) : Result :=
  live clockOutAnswer s

/-- Probe pins take new voltages (R2, R3, R6, R8, R14). -/
def execRawLevelChange (change : RawChange) (s : State) : Result :=
  liveInput (pinsHeld change.pins) (rawLevelChange change.pins change.due) s

/-- Candidates become qualified edges (R3, R5, R6). -/
def execQualifiedEdge (edges : DueEdges) (s : State) : Result :=
  live (qualify edges) s

/-- The RTE absorbs the posting of a lane (R91). -/
def execAbsorption (lane : Fin 4) (s : State) : Result :=
  live (absorption lane) s

/-- The RTE serves a lane's marking request (R100). -/
def execMarking (lane : Fin 4) (s : State) : Result :=
  live (serveRequest .marking lane (markLane lane)) s

/-- The RTE serves a lane's retirement request (R100). -/
def execRetirement (lane : Fin 4) (s : State) : Result :=
  live (serveRequest .retirement lane (retireLane lane)) s

/-- The RTE serves a ranking slice (R149). -/
def execRankingSlice (s : State) : Result :=
  live (displayUnit rankingWaits rankingSlice) s

/-- The RTE serves a drawing slice (R150, R151). -/
def execDrawingSlice (s : State) : Result :=
  live (displayUnit drawingWaits drawingSlice) s

/-- The RTE serves the settings block of a load (R190). -/
def execSettingsBlock (s : State) : Result :=
  live settingsServed s

/-- The RTE serves one seed of a load (R191). -/
def execSeedApplication (s : State) : Result :=
  live seedServed s

/-- The image of a load is judged (R188). -/
def execImageJudgement (s : State) : Result :=
  live imageJudged s

/-- The INVALIDATE stage of a store completes (R194). -/
def execInvalidate (s : State) : Result :=
  live storeInvalidate s

/-- The ERASE stage of a store completes (R194). -/
def execErase (s : State) : Result :=
  live storeErase s

/-- The PROGRAM stage of a store completes (R194). -/
def execProgram (defects : List Host.Cell) (s : State) : Result :=
  live (storeProgram defects) s

/-- The VERIFY stage of a store completes (R194). -/
def execVerify (s : State) : Result :=
  live storeVerify s

/-- The COMMIT stage of a store completes (R194). -/
def execCommit (s : State) : Result :=
  live storeCommit s

/-- The epoch timer expires (R7, R86). -/
def execEpochExpiry (s : State) : Result :=
  live epochExpiry s

/-- The dim timer expires (R158, R159). -/
def execDimTimerExpiry (s : State) : Result :=
  live dimExpiry s

/-- The dark timer expires (R158, R159). -/
def execDarkTimerExpiry (s : State) : Result :=
  live darkExpiry s

/-- The sleep timer expires (R159, R162). -/
def execSleepTimerExpiry (s : State) : Result :=
  live sleepExpiry s

/-- Sleep entry completes (R163). -/
def execSleepEntryCompletion (s : State) : Result :=
  live sleepEntryCompletion s

/-- A wake comparator qualifies an edge (R14, R166). -/
def execWakeSideEdge (probe : Fin 16) (s : State) : Result :=
  live (wakeSideEdge probe) s

/-- Wake completes (R167). -/
def execWakeCompletion (s : State) : Result :=
  live wakeCompletes s

/-- The refresh timer expires (R147, R148). -/
def execRefreshExpiry (s : State) : Result :=
  live refreshExpiry s

/-- A LINE message has left the panel port (R151). -/
def execLine (s : State) : Result :=
  live lineSent s

/-- The HOLDKEY input takes a level (R161). -/
def execHoldkeyChange (low : Bool) (s : State) : Result :=
  liveInput (holdkeyHeld low) (holdkeyChanges low) s

/-- The HOLDKEY input has stood at the candidate level for 20 ms (R161). -/
def execDebounceExpiry (s : State) : Result :=
  live debounce s

/-- Power is applied (R181). -/
def execPowerOn (s : State) : Result :=
  always (fullReset .powerOn) s

/-- The RESET input is asserted (R181). -/
def execResetPin (s : State) : Result :=
  always (fullReset .resetPin) s

/-- The supply falls below the operating level (R181). -/
def execSupplyLow (s : State) : Result :=
  always (fullReset .supplyLow) s

/-- A byte cell, or one of its clock edges, comes with LSEL low (R172, R173). -/
def execByteCell (p : CellPart) (s : State) : Result :=
  live (byteCell p) s

/-- A PANEL-ON or PANEL-OFF message has left the panel port (R154). -/
def execPanelMessageSent (s : State) : Result :=
  live panelMessageSent s

/-- The full reset is released (R16, R86, R161, R171, R187). -/
def execResetRelease (s : State) : Result :=
  always resetReleaseSettled s

end Sys2Proof.Machine
end

