-- ==== Sys2Proof/Machine/Dispatch.lean ====
section
/-! DEFINITION. One arm per command of the part (spec/opcode_table.json). -/

namespace Sys2Proof.Machine

/-- The meaning of every command. -/
def exec (i : Instr) (s : State) : Host.Outcome State Fault Refusal :=
  match i with
  | .identify f => Sys2Proof.Machine.execIdentify f s
  | .release f => Sys2Proof.Machine.execRelease f s
  | .status f => Sys2Proof.Machine.execStatus f s
  | .acknowledge f => Sys2Proof.Machine.execAcknowledge f s
  | .attnEnable f => Sys2Proof.Machine.execAttnEnable f s
  | .restart f => Sys2Proof.Machine.execRestart f s
  | .probeSet f => Sys2Proof.Machine.execProbeSet f s
  | .probeRead m f => Sys2Proof.Machine.execProbeRead m f s
  | .laneSet f => Sys2Proof.Machine.execLaneSet f s
  | .laneEnable f => Sys2Proof.Machine.execLaneEnable f s
  | .laneStatus m f => Sys2Proof.Machine.execLaneStatus m f s
  | .lookup m f => Sys2Proof.Machine.execLookup m f s
  | .walk m f => Sys2Proof.Machine.execWalk m f s
  | .walkFrom m f => Sys2Proof.Machine.execWalkFrom m f s
  | .seed m f => Sys2Proof.Machine.execSeed m f s
  | .amend m f => Sys2Proof.Machine.execAmend m f s
  | .retire m f => Sys2Proof.Machine.execRetire m f s
  | .clearTable m f => Sys2Proof.Machine.execClearTable m f s
  | .tableInfo m f => Sys2Proof.Machine.execTableInfo m f s
  | .hold m f => Sys2Proof.Machine.execHold m f s
  | .watchSet m f => Sys2Proof.Machine.execWatchSet m f s
  | .watchFree f => Sys2Proof.Machine.execWatchFree f s
  | .takeWatch f => Sys2Proof.Machine.execTakeWatch f s
  | .trapSet m f => Sys2Proof.Machine.execTrapSet m f s
  | .trapRead f => Sys2Proof.Machine.execTrapRead f s
  | .viewSet f => Sys2Proof.Machine.execViewSet f s
  | .viewOptions f => Sys2Proof.Machine.execViewOptions f s
  | .panelSet f => Sys2Proof.Machine.execPanelSet f s
  | .powerSet f => Sys2Proof.Machine.execPowerSet f s
  | .powerStatus f => Sys2Proof.Machine.execPowerStatus f s
  | .sleep m f => Sys2Proof.Machine.execSleep m f s
  | .profileLoad f => Sys2Proof.Machine.execProfileLoad f s
  | .profileStore f => Sys2Proof.Machine.execProfileStore f s
  | .profileStatus f => Sys2Proof.Machine.execProfileStatus f s
  | .unknownCommand byte f => Sys2Proof.Machine.execUnknownCommand byte f s
  | .lselFallingEdge => Sys2Proof.Machine.execLselFallingEdge s
  | .lselRisingEdge => Sys2Proof.Machine.execLselRisingEdge s
  | .completeDelivery => Sys2Proof.Machine.execCompleteDelivery s
  | .rawLevelChange change => Sys2Proof.Machine.execRawLevelChange change s
  | .qualifiedEdge edges => Sys2Proof.Machine.execQualifiedEdge edges s
  | .absorption lane => Sys2Proof.Machine.execAbsorption lane s
  | .marking lane => Sys2Proof.Machine.execMarking lane s
  | .retirement lane => Sys2Proof.Machine.execRetirement lane s
  | .rankingSlice => Sys2Proof.Machine.execRankingSlice s
  | .drawingSlice => Sys2Proof.Machine.execDrawingSlice s
  | .settingsBlock => Sys2Proof.Machine.execSettingsBlock s
  | .seedApplication => Sys2Proof.Machine.execSeedApplication s
  | .imageJudgement => Sys2Proof.Machine.execImageJudgement s
  | .invalidate => Sys2Proof.Machine.execInvalidate s
  | .erase => Sys2Proof.Machine.execErase s
  | .program defects => Sys2Proof.Machine.execProgram defects s
  | .verify => Sys2Proof.Machine.execVerify s
  | .commit => Sys2Proof.Machine.execCommit s
  | .epochExpiry => Sys2Proof.Machine.execEpochExpiry s
  | .dimTimerExpiry => Sys2Proof.Machine.execDimTimerExpiry s
  | .darkTimerExpiry => Sys2Proof.Machine.execDarkTimerExpiry s
  | .sleepTimerExpiry => Sys2Proof.Machine.execSleepTimerExpiry s
  | .sleepEntryCompletion => Sys2Proof.Machine.execSleepEntryCompletion s
  | .wakeSideEdge probe => Sys2Proof.Machine.execWakeSideEdge probe s
  | .wakeCompletion => Sys2Proof.Machine.execWakeCompletion s
  | .refreshExpiry => Sys2Proof.Machine.execRefreshExpiry s
  | .line => Sys2Proof.Machine.execLine s
  | .holdkeyChange low => Sys2Proof.Machine.execHoldkeyChange low s
  | .debounceExpiry => Sys2Proof.Machine.execDebounceExpiry s
  | .powerOn => Sys2Proof.Machine.execPowerOn s
  | .resetPin => Sys2Proof.Machine.execResetPin s
  | .supplyLow => Sys2Proof.Machine.execSupplyLow s
  | .byteCell p => Sys2Proof.Machine.execByteCell p s
  | .panelMessageSent => Sys2Proof.Machine.execPanelMessageSent s
  | .resetRelease => Sys2Proof.Machine.execResetRelease s

end Sys2Proof.Machine
end

