-- ==== Sys2Proof/Safety.lean ====
section
/-! DEFINITION. The laws the spec gives the state of the part as a whole, in the terms the claims use. -/

namespace Sys2Proof.Machine

/-! ## The register table -/

/-- The table is a map of at most 1024 records in key order: no two records have the same key (R85). -/
abbrev TableLaw (s : State) : Prop :=
  s.rte.table.length ≤ Config.tableCapacity ∧ (s.rte.table.map fun r => r.key.num).Pairwise (· < ·)

/-- Every watch slot in ARMED or PENDING is bound to a record present in the table that names that slot, and every record
that names a slot is bound by that slot in ARMED or PENDING (R118). -/
abbrev BindingLaw (s : State) : Prop :=
  (∀ i : Fin 8, ∀ k, (s.wta.slots[i]).boundKey = some k → ∃ r ∈ s.rte.table, r.key = k ∧ r.watch = some i)
    ∧ ∀ r ∈ s.rte.table, ∀ i, r.watch = some i → (s.wta.slots[i]).boundKey = some r.key

/-- A record's counts stay in their ranges, its epochs lie at or before the present one, it has a held part only while hold
is in force, and it is mismatched only while it has an expectation (R84, R88, R98, R102, R111). -/
abbrev Record.Law (epoch : Nat) (hold : Bool) (r : Record) : Prop :=
  r.heat ≤ 65535 ∧ r.changes ≤ Config.countMax ∧ r.stamp ≤ epoch ∧ r.lastAccess ≤ epoch
    ∧ (∀ e, r.lastChange = some e → e ≤ epoch) ∧ (r.held.isSome → hold = true)
    ∧ (r.mismatched = true → r.expectation.isSome)

/-- The epoch counter is at most 2^32 - 1 (R86), and every record of the table meets its law. -/
abbrev RecordLaw (s : State) : Prop :=
  s.rte.epoch ≤ Config.epochMax ∧ ∀ r ∈ s.rte.table, r.Law s.rte.epoch s.rte.hold

/-- The first-refused capture is present exactly while attention cause ADMIT is set (R94). -/
abbrev CaptureLaw (s : State) : Prop :=
  s.rte.capture.isSome = (s.wta.causes &&& Cause.admission.bit != 0)

/-! ## Lanes -/

/-- A lane is OFF exactly while it is disabled or of kind NONE, and its slot is then empty; its pointer table holds at most
eight entries, and none on another kind; a posting in its slot is its own, at its W; a note stands only on a set flag; a
MANAGEMENT lane holds W = 2 and A = 1 (R18, R22, R23, R30, R47). -/
abbrev Lane.Law (i : Fin 4) (l : Lane) : Prop :=
  (l.state = .off ↔ ¬ (l.enabled = true ∧ l.cfg.kind ≠ .none)) ∧ (l.state = .off → l.slot = none)
    ∧ l.pointers.length ≤ Config.pointerCapacity ∧ (l.cfg.kind ≠ .twoWire → l.pointers = [])
    ∧ (∀ p, l.slot = some p → p.key.lane = i ∧ p.width = l.cfg.w) ∧ l.notes &&& ~~~l.flags = 0
    ∧ (l.cfg.kind = .management → l.cfg.w = 2 ∧ l.cfg.a = 1)

/-- Every lane meets its law. -/
abbrev LanesLaw (s : State) : Prop :=
  ∀ i : Fin 4, (s.lanes[i]).Law i

/-- A record's width is its lane's present W, unless the lane's retirement still waits at the RTE (R33, R84). -/
abbrev WidthLaw (s : State) : Prop :=
  ∀ r ∈ s.rte.table,
    r.width = (s.lanes[r.key.lane]).cfg.w ∨ (s.lanes[r.key.lane]).request = some .retirement

/-! ## Power and panel -/

/-- The chain timer that may run in each power state (R159). -/
abbrev TimerLaw (p : Pwu) : Prop :=
  ∀ t n, p.timer = some (t, n) →
    p.op = .none ∧ ((t = .dim ∧ p.power = .run) ∨ (t = .dark ∧ p.power = .dim) ∨ (t = .sleep ∧ p.power = .dark))

/-- While a full reset is held the part is in RUN with no operation in flight, no timer running and no expiry deferred (R171;
log 24). -/
abbrev HeldPowerLaw (s : State) : Prop :=
  s.inReset = true → s.pwu.power = .run ∧ s.pwu.op = .none ∧ s.pwu.timer = none ∧ s.pwu.deferred = false

/-- Sleep entry is in flight only in DARK and wake only in SLEEP; a deferred expiry waits in DARK (R159, R162, R166). -/
abbrev PowerLaw (s : State) : Prop :=
  (s.pwu.op = .sleepEntry → s.pwu.power = .dark) ∧ (s.pwu.op = .wake → s.pwu.power = .sleep)
    ∧ (s.pwu.deferred = true → s.pwu.power = .dark ∧ s.pwu.op = .none) ∧ TimerLaw s.pwu ∧ HeldPowerLaw s

/-- The panel is ON only in RUN and DIM, the refresh timer runs exactly while it is ON, with the period of the power state,
and a refresh that waits for slices is in flight only then (R147, R154). -/
abbrev PanelLaw (s : State) : Prop :=
  s.dse.refreshTimer = (if s.dse.panelOn then some (refreshPeriod s.pwu.power) else none)
    ∧ (s.dse.panelOn = true → s.pwu.power = .run ∨ s.pwu.power = .dim)
    ∧ (s.dse.refresh.isSome → s.dse.panelOn = true)

/-! ## Settings -/

/-- A lane's configuration lies in the values of R18. -/
abbrev LaneConfig.Law (c : LaneConfig) : Prop :=
  (c.w = 1 ∨ c.w = 2 ∨ c.w = 4) ∧ (c.a = 1 ∨ c.a = 2) ∧ c.clockMode ≤ 3 ∧ 1 ≤ c.selectCount ∧ c.selectCount ≤ 4
    ∧ c.latency ≤ 3 ∧ c.preamble ≤ 32

/-- Every setting that is a magnitude lies in its range (R1, R9, R18, R146, R156, R168). -/
abbrev SettingsLaw (s : State) : Prop :=
  (∀ i : Fin 4, (s.lanes[i]).cfg.Law)
    ∧ (∀ b : Fin 2, 10 ≤ (s.pfe.banks[b]).code ∧ (s.pfe.banks[b]).code ≤ 250 ∧ (s.pfe.banks[b]).width ≤ 15)
    ∧ s.pwu.dim ≤ 255 ∧ s.pwu.dark ≤ 255 ∧ s.pwu.sleep ≤ 255
    ∧ s.dse.window ≤ 15 ∧ s.dse.runLevel ≤ 15 ∧ s.dse.dimLevel ≤ 15

/-- The private flash is in its canonical form. -/
abbrev FlashLaw (s : State) : Prop := s.pim.flash.wf = true

/-! ## The link -/

/-- While LSEL is high, or a full reset is held, no transaction is open, the part does not drive LDO, and every command that
still waits has lost its transaction (R172, R173, R177, R185). -/
abbrev LinkLaw (s : State) : Prop :=
  s.inReset = true ∨ s.ctl.lselLow = false →
    s.ctl.phase = .closed ∧ s.ctl.cell = none ∧ (∀ w ∈ s.ctl.waiting, w.cut = true) ∧ ∀ d ∈ s.ctl.deferred, d.cut = true

/-! ## Full reset -/

/-- What a full reset leaves, with this cause and LSEL input: every block at its reset values and held there; the input
levels, the flash and the queue as they were (R16, R37, R116, R117, R127, R132, R135, R157, R171, R181, R185, R187). -/
structure AfterFullReset (cause : ResetCause) (lselLow : Bool) (s t : State) : Prop where
  held : t.inReset = true
  queue : t.pending = s.pending
  pins : t.pfe.pins = s.pfe.pins ∧ t.pfe.due = []
  banks : ∀ b : Fin 2, t.pfe.banks[b] = ⟨80, 2⟩
  probes : ∀ p : Fin 16, t.pfe.probes[p] = ⟨false, 0, 0, false, none, false, none⟩
  lanes : ∀ i : Fin 4, t.lanes[i] =
    { cfg :=
        { kind := .none, w := 1, a := 1, byteOrder := .big, activity := false, tenBit := false, clockMode := 0
          bitOrder := .msbFirst, selectCount := 1, polarity := .readIsOne, autoinc := .always, latency := 0
          preamble := 32, pins := ⟨0, 0, 0, Vector.replicate 4 0, 0, 0, 0, 0⟩ }
      enabled := false, state := .off, two := ⟨[], none, .address, none⟩, four := ⟨false, [], [], 0, .command []⟩
      mgmt := ⟨0, false, .operation []⟩, pointers := [], slot := none, flags := 0, notes := 0, request := none }
  rte : t.rte = ⟨[], 0, false, false, ⟨0, 0, 0⟩, none, none, .profile, none⟩
  slots : ∀ i : Fin 8, t.wta.slots[i] = .free
  traps : ∀ i : Fin 4, t.wta.traps[i] = ⟨.off, 0, 0, 0, 0, .both, 0, none, none⟩
  causes : t.wta.causes = 0 ∧ t.wta.enables = 0
  rows : ∀ i : Fin 16, t.dse.rows[i] = ⟨.auto, .hex, false⟩
  panel : t.dse.window = 4 ∧ t.dse.runLevel = 12 ∧ t.dse.dimLevel = 3 ∧ t.dse.panelOn = false
    ∧ t.dse.refreshTimer = none ∧ t.dse.refresh = none ∧ t.dse.port = []
  lastSent : ∀ n : Fin 17, t.dse.lastSent[n] = List.replicate 40 0x20
  power : t.pwu =
    { power := .run, op := .none, dim := 30, dark := 60, sleep := 0, timer := none, deferred := false
      keyActivity := true, linkActivity := true, wakeEdges := Vector.replicate 16 .none, holdkeyWake := true
      wakePending := ⟨0, false, false⟩, keyLow := s.pwu.keyLow, keyPressed := false, keyCandidate := none
      clearNote := none }
  link : t.ctl =
    { link := .held, phase := .closed, txn := ⟨none, none, [], [], 0, false, false⟩, lselLow := lselLow, cell := none
      record := ⟨cause, .blank, 0, 0⟩, waiting := [], deferred := [] }
  profile : t.pim = ⟨.none, ⟨[], 0, false⟩, none, s.pim.flash⟩

/-! ## Taking and serving a command -/

/-- The row of a command at the moment it is taken. -/
def takenRow (c : Cmd) (f : Frame) : Instr :=
  match c with
  | .identify => .identify f
  | .release => .release f
  | .status => .status f
  | .acknowledge => .acknowledge f
  | .attnEnable => .attnEnable f
  | .restart => .restart f
  | .probeSet => .probeSet f
  | .probeRead => .probeRead .taken f
  | .laneSet => .laneSet f
  | .laneEnable => .laneEnable f
  | .laneStatus => .laneStatus .taken f
  | .lookup => .lookup .taken f
  | .walk => .walk .taken f
  | .walkFrom => .walkFrom .taken f
  | .seed => .seed .taken f
  | .amend => .amend .taken f
  | .retire => .retire .taken f
  | .clearTable => .clearTable .taken f
  | .tableInfo => .tableInfo .taken f
  | .hold => .hold .taken f
  | .watchSet => .watchSet .taken f
  | .watchFree => .watchFree f
  | .takeWatch => .takeWatch f
  | .trapSet => .trapSet .taken f
  | .trapRead => .trapRead f
  | .viewSet => .viewSet f
  | .viewOptions => .viewOptions f
  | .panelSet => .panelSet f
  | .powerSet => .powerSet f
  | .powerStatus => .powerStatus f
  | .sleep => .sleep .taken f
  | .profileLoad => .profileLoad f
  | .profileStore => .profileStore f
  | .profileStatus => .profileStatus f

/-- A transaction has just opened, and the part is out of sleep entry, SLEEP and wake (R173). -/
abbrev Opened (s : State) : Prop :=
  s.inReset = false ∧ s.ctl.lselLow = true ∧ s.ctl.phase = .command ∧ s.ctl.txn = Txn.empty
    ∧ s.ctl.cell = some ⟨[], false, 0xFF, false⟩ ∧ s.pwu.op = .none
    ∧ s.pwu.power ≠ .sleep

/-- A transaction has just opened in RUN on a READY link, and no command waits for the owner of this one (R173 to R177). -/
abbrev Hears (c : Cmd) (ops : List Byte) (s : State) : Prop :=
  Opened s ∧ s.pwu.power = .run ∧ s.ctl.link = .ready ∧ ops.length = c.operandLength
    ∧ ∀ w ∈ s.ctl.waiting, ownerOf w.cmd w.operands ≠ ownerOf c ops

/-- The PWU after a command is taken in RUN: while link activity is yes the dim timer starts afresh and the deferred mark is
cleared (R159, R160). -/
def heard (s : State) : Pwu :=
  if s.pwu.linkActivity then { s.pwu with timer := startTimer .dim s.pwu.dim, deferred := false } else s.pwu

/-- The transaction record of a command that is answered: START and the answer frame come next (R176). -/
def answeredTxn (byte : Byte) (f : Frame) (a : Answer) : Txn :=
  { command := some byte, len := some f.len, operands := f.operands, answer := a.bytes, sent := 0
    restarts := byte = Cmd.restart.code && a.status = .ok, sleeps := false }

/-- The byte cell that takes a command, at its eighth rising edge: it carried 0xFF (R173, R174). -/
def takingCell : Cell := ⟨[], true, 0xFF, false⟩

/-- The part at the moment the owner serves a command taken in RUN (R174, R176). -/
def taken (c : Cmd) (ops : List Byte) (s : State) : State :=
  { s with
    pwu := heard s
    ctl := { s.ctl with phase := .waiting, cell := some takingCell, txn := Txn.ofFrame c.code (Frame.ofOperands ops) } }

/-- The part after a command of this byte is taken in RUN and answered at once, with no other effect (R174, R176). -/
def answeredAtOnce (byte : Byte) (f : Frame) (a : Answer) (s : State) : State :=
  { s with
    pwu := heard s
    ctl := { s.ctl with phase := .answer, cell := some takingCell, txn := answeredTxn byte f a } }

/-- The part after this command is taken in RUN and waits for its owner, with no other effect (R174, R176). -/
def leftWaiting (c : Cmd) (f : Frame) (s : State) : State :=
  { s with
    pwu := heard s
    ctl := { s.ctl with
      phase := .waiting, cell := some takingCell, txn := Txn.ofFrame c.code f
      waiting := s.ctl.waiting ++ [⟨c, f.operands, false⟩] } }

/-- A command waits in its open transaction and is the next one its owner serves, out of SLEEP (R176, R177). -/
abbrev Waits (c : Cmd) (ops : List Byte) (s : State) : Prop :=
  s.inReset = false ∧ s.pwu.power ≠ .sleep ∧ ops.length = c.operandLength
    ∧ firstWaiting (ownerOf c ops) s = some ⟨c, ops, false⟩

/-- A command waits at the LINK position, which the RTE is serving (R89, R90). -/
abbrev WaitsAtLink (c : Cmd) (ops : List Byte) (s : State) : Prop :=
  Waits c ops s ∧ s.rte.serving = some .link

/-- The Control Link after a waiting command has been served with this answer (R176). -/
def servedCtl (c : Cmd) (ops : List Byte) (a : Answer) (s : State) : Ctl :=
  { s.ctl with
    waiting := s.ctl.waiting.erase ⟨c, ops, false⟩
    phase := .answer
    txn := { s.ctl.txn with
      answer := a.bytes, sent := 0, restarts := false, sleeps := c = .sleep && a.status = .ok } }

/-- The part after the LINK unit of a command that has no effect but its answer (R89, R176). -/
def servedAtLink (c : Cmd) (ops : List Byte) (a : Answer) (s : State) : State :=
  { s with
    rte := { s.rte with last := .link, serving := none }
    ctl := servedCtl c ops a s }

/-- The part with its transaction ended by a rise of LSEL: the record is dropped, and every command that still waits goes
on without its transaction (R173, R177). -/
def cutOff (s : State) : State :=
  { s with
    ctl := { s.ctl with
      lselLow := false, phase := .closed, txn := Txn.empty, cell := none
      waiting := s.ctl.waiting.map fun w => ⟨w.cmd, w.operands, true⟩
      deferred := s.ctl.deferred.map fun d => ⟨d.command, d.frame, true⟩ } }

/-- The part with the last byte of its answer sent (R177). -/
def sentWhole (s : State) : State :=
  { s with
    ctl := { s.ctl with
      phase := .trailer, cell := some ⟨[], true, s.ctl.txn.answer.getLastD 0xFF, true⟩
      txn := { s.ctl.txn with sent := s.ctl.txn.answer.length } } }

/-- The slots after every record outside `kept` has been retired: a slot bound to one of them has had its report, and every
other one is as it was (R126). -/
abbrev SlotsAfterRetirement (kept : List Record) (s : State) (slots : Vector Slot 8) : Prop :=
  ∀ i : Fin 8, slots[i] =
    match (s.wta.slots[i]).boundKey with
    | none => s.wta.slots[i]
    | some k => if kept.any (fun r => r.key = k) then s.wta.slots[i] else (s.wta.slots[i]).retired

/-- The RTE is serving lane `i`, which has no request waiting and this posting in its slot (R89, R91). -/
abbrev AbsorbsNext (i : Fin 4) (p : Posting) (s : State) : Prop :=
  s.inReset = false ∧ s.rte.serving = some (.lane i) ∧ (s.lanes[i]).request = none ∧ (s.lanes[i]).slot = some p

/-- The part after lane `i`'s absorption unit, but for what absorbing the posting does: the slot is empty and the position
served (R24, R89). -/
def absorbedFrom (i : Fin 4) (s : State) : State :=
  { s with
    lanes := s.lanes.set i { s.lanes[i] with slot := none }
    rte := { s.rte with last := .lane i, serving := none } }

/-- A window that has counted a match (R129). -/
def countedTrap (k : Key) (t : Trap) : Trap :=
  { t with
    count := min 65535 (t.count + 1), first := some (t.first.getD k)
    clearNote := t.clearNote.map fun n => ⟨min 65535 (n.count + 1), some (n.first.getD k)⟩ }

/-- The windows after a posting has been matched (R129). -/
def countedTraps (p : Posting) (s : State) : Vector Trap 4 :=
  Vector.ofFn fun j => if (s.wta.traps[j]).hit p then countedTrap p.key s.wta.traps[j] else s.wta.traps[j]

/-- TRAP, as a posting raises it: when a window in mode NOTIFY matches it (R129, R132). -/
def trapCause (p : Posting) (s : State) : BitVec 9 :=
  if s.wta.traps.toList.any (fun t => t.hit p && t.mode = .notify) then 0x008 else 0

/-- The RTE is serving the DISPLAY position for a refresh in this phase (R89, R149, R150). -/
abbrev ServesRefresh (rf : Refresh) (s : State) : Prop :=
  s.inReset = false ∧ s.rte.serving = some .display ∧ s.dse.refresh = some rf

/-- A load of this progress is in flight. -/
abbrev Loads (l : Load) (s : State) : Prop := s.inReset = false ∧ s.pim.op = .load l

/-- The part after a unit at position `p` that changes nothing else (R89). -/
def unitDone (p : Position) (s : State) : State :=
  { s with rte := { s.rte with last := p, serving := none } }

/-- Commands executed one after another, up to the first that does not answer a next state. -/
def runAll : List Instr → State → Result
  | [], s => .next s
  | i :: is, s =>
    match exec i s with
    | .next t => runAll is t
    | r => r

/-! ## Answers to commands that waited together -/

/-- The Control Link after every waiting command that `mine` picks has been served with this answer: the one whose
transaction is open sends it, and the answers of the others are dropped (R176, R177). -/
def answeredCtl (mine : Waiting → Bool) (a : Answer) (c : Ctl) : Ctl :=
  { c with
    waiting := c.waiting.filter fun w => !mine w
    phase := if c.waiting.any (fun w => mine w && !w.cut) then .answer else c.phase
    txn := if c.waiting.any (fun w => mine w && !w.cut) then
        { c.txn with answer := a.bytes, sent := 0, restarts := false, sleeps := false }
      else c.txn }

/-! ## The power chain -/

/-- A lane at the moment sleep entry begins: everything but its slot, configuration, flags and request is discarded, and it
is OFF, or SEEKING, or IDLE where it is a four-wire lane with no select active (R36, R60, R71). -/
def stoppedLane (lv : Levels) (l : Lane) : Lane :=
  { l with
    two := ⟨[], none, .address, none⟩, four := ⟨false, [], [], 0, .command []⟩, mgmt := ⟨0, false, .operation []⟩
    pointers := []
    state :=
      if l.state = .off then .off
      else if l.cfg.kind = .fourWire ∧ ∀ n : Fin 4, n.val < l.cfg.selectCount → lv (l.cfg.pins.sel[n]) = true then .idle
      else .seeking }

/-- The part as sleep entry begins with the panel already OFF (R162). -/
def sleepEntered (s : State) : State :=
  { s with
    pwu := { s.pwu with power := .dark, op := .sleepEntry, timer := none, deferred := false }
    lanes := Vector.ofFn fun i => stoppedLane s.pfe.levels s.lanes[i] }

/-- The PWU as the part enters RUN (R159, R160). -/
def ran (p : Pwu) : Pwu :=
  { p with power := .run, op := .none, timer := if p.dim = 0 then none else some (.dim, p.dim), deferred := false }

/-- A row of a snapshot is composed: every row, or under hold the rebound ones (R153). -/
def rowComposed (holdOn : Bool) (rows : Vector Row 16) (i : Fin 16) : Bool := !holdOn || (rows[i]).rebound

/-- How many composed AUTO rows stand above a row (R149). -/
def autosAbove (holdOn : Bool) (rows : Vector Row 16) (i : Fin 16) : Nat :=
  ((List.finRange 16).filter fun j => j.val < i.val && (rows[j]).binding = .auto && rowComposed holdOn rows j).length

/-- The table rows of a snapshot in row order: the RECORD rows, the WATCH rows, and the AUTO rows given a key, the first the
first key of the ranked list, the next the second (R149, R150, R153). -/
def tableRows (holdOn : Bool) (rows : Vector Row 16) (keys : List Key) : List (Fin 16 × TableRow) :=
  (List.finRange 16).filterMap fun i =>
    if rowComposed holdOn rows i = false then none
    else match (rows[i]).binding with
      | .record k => some (i, .record k)
      | .watch n => some (i, .watch n)
      | .auto => keys[autosAbove holdOn rows i]?.map fun k => (i, .auto k)
      | .empty | .probe _ => none

/-- A refresh as it starts, with its snapshot (R148). -/
def refreshStarted (isRepaint : Bool) (s : State) : Refresh :=
  { rows := s.dse.rows, window := s.dse.window, holdOn := s.rte.hold, isRepaint
    phase :=
      if s.rte.hold = true ∨ ∀ i : Fin 16, (s.dse.rows[i]).binding ≠ .auto then
        .drawing (tableRows s.rte.hold s.dse.rows []) []
      else .ranking ⟨0, 0, 0⟩ [] }

/-- The panel after it has come ON with this refresh period, with its repaint (R155). -/
def panelCameOn (period : Nat) (s : State) : Dse :=
  { s.dse with
    panelOn := true, refreshTimer := some period, refresh := some (refreshStarted true s)
    port := s.dse.port ++ [.panelOn] }

/-! ## Loads -/

/-- The code of a reset cause (R196). -/
def causeCode : ResetCause → Nat
  | .powerOn => 0
  | .resetPin => 1
  | .command => 2
  | .supplyLow => 3

/-- The code of a load's profile result (R196). -/
def resultCode : Validity → Nat
  | .valid => 0
  | .blank => 1
  | .corrupt => 2

/-- A deferred sleep-timer expiry waits only in DARK, with no operation of the PWU in flight and the panel OFF (R154,
R159). -/
abbrev DeferredLaw (s : State) : Prop :=
  s.pwu.deferred = true → s.pwu.power = .dark ∧ s.pwu.op = .none ∧ s.dse.panelOn = false

/-- The commands that wait for the CTL are RELEASEs (R180). -/
abbrev OnlyReleasesWait (s : State) : Prop :=
  ∀ w ∈ s.ctl.waiting, ownerOf w.cmd w.operands = .ctl → w.cmd = .release

/-- The part after a profile operation has completed with this outcome: the last outcome is set, PROFILE raised, and a
deferred sleep-timer expiry begins sleep entry (R187). -/
def profileCompleted (last : LastOutcome) (s : State) : State :=
  let t := { s with
    pim := { s.pim with op := .none, last := some last }
    wta := { s.wta with causes := s.wta.causes ||| 0x040 } }
  if s.pwu.deferred then sleepEntered t else t

/-- The part after a load has completed with this judgement. After the start-up load the reset cause record takes the result,
the RELEASEs that wait are answered with it, and in RUN and DIM the panel comes ON (R187, R189, R192). -/
def loadCompleted (l : Load) (v : Validity) (s : State) : State :=
  let outcome := LastOutcome.load l.scope v l.loaded l.skipped
  if l.scope = .startUp then
    profileCompleted outcome { s with
      ctl := answeredCtl (fun w => w.cmd = .release)
        ⟨.ok, [BitVec.ofNat 8 (causeCode s.ctl.record.cause), BitVec.ofNat 8 (resultCode v)]
          ++ beBytes 2 l.loaded ++ beBytes 2 l.skipped⟩
        { s.ctl with record := ⟨s.ctl.record.cause, v, l.loaded, l.skipped⟩ }
      dse :=
        if s.dse.panelOn = true then s.dse
        else if s.pwu.power = .run then panelCameOn 100 s
        else if s.pwu.power = .dim then panelCameOn 500 s
        else s.dse }
  else profileCompleted outcome s

/-- A load with this progress goes on to its next seed, or completes after its last one (R189, R191). -/
def seedsGoOn (l : Load) (s : State) : State :=
  if l.next < s.pim.flash.seedCount then { s with pim := { s.pim with op := .load l } } else loadCompleted l .valid s

/-! ## The panel's text, spelled from R140 to R145 -/

/-- The code of a digit: 0 to 9, then A to F. -/
def digitCode (d : Nat) : Byte := BitVec.ofNat 8 (if d < 10 then 0x30 + d else 0x37 + d)

/-- The `n` lowest digits of `v` in a base, with leading zeros. -/
def numeral (base n v : Nat) : List Byte :=
  (List.range n).map fun j => digitCode (v / base ^ (n - 1 - j) % base)

/-- A number in decimal without leading zeros. -/
def decimalText (n : Nat) : List Byte :=
  if n = 0 then [0x30] else (Nat.digits 10 n).reverse.map digitCode

/-- Text at the left of a field of `n` columns. -/
def column (n : Nat) (t : List Byte) : List Byte := t ++ List.replicate (n - t.length) 0x20

/-- A change count at the right of columns 36 to 40 (R140). -/
def countColumn (n : Nat) : List Byte := List.replicate (5 - (decimalText n).length) 0x20 ++ decimalText n

/-- The five fields of a row (R140). -/
def rowLine (mark : Byte) (name value count : List Byte) : List Byte :=
  [mark] ++ column 12 name ++ [0x20] ++ column 20 value ++ [0x20] ++ count

/-- The key text of a key (R140). -/
def keyLine (k : Key) : List Byte :=
  [0x4C, digitCode k.lane.val, 0x20] ++ numeral 16 3 k.target.toNat ++ [0x20] ++ numeral 16 4 k.register.toNat

/-- A value in a row's format at a width of 1, 2 or 4 (R140). -/
def valueLine (f : Format) (width : Nat) (v : Word) : List Byte :=
  if f = .decimal then decimalText v.toNat
  else if f = .binary ∧ width = 1 then numeral 2 8 v.toNat
  else if f = .binary ∧ width = 2 then numeral 2 8 (v.toNat / 256) ++ [0x20] ++ numeral 2 8 (v.toNat % 256)
  else [0x30, 0x78] ++ numeral 16 (2 * width) v.toNat

/-- The marker of a record (R141). -/
def markLine (window epoch : Nat) (r : Record) : Byte :=
  if r.mismatched then 0x21
  else if r.diverged then 0x7E
  else if r.lastChange.any (fun e => epoch - e < window) then 0x2A
  else if r.unverified then 0x3F
  else 0x20

/-- The row of a record that shows this value (R140). -/
def recordLine (f : Format) (window epoch : Nat) (v : Option Word) (r : Record) : List Byte :=
  rowLine (markLine window epoch r) (r.label.getD (keyLine r.key))
    (v.elim [0x2D, 0x2D, 0x2D, 0x2D] (valueLine f r.width)) (countColumn r.changes)

/-- "gone". -/
def goneCodes : List Byte := [0x67, 0x6F, 0x6E, 0x65]

/-- "Wn", a space and the first 9 characters of a name (R144). -/
def watchColumn (n : Fin 8) (name : List Byte) : List Byte := [0x57, digitCode n.val, 0x20] ++ name.take 9

/-- The plus that a missed mark adds (R144). -/
def plus (missed : Bool) : List Byte := if missed then [0x2B] else []

/-! ## Buses -/

/-- The value of a register's bytes in bus order (R25). -/
def orderedValue (order : ByteOrder) (bytes : List Byte) : Word :=
  BitVec.ofNat 32 (match order with
    | .big => bytes.foldl (fun n b => 256 * n + b.toNat) 0
    | .little => bytes.foldr (fun b n => b.toNat + 256 * n) 0)

/-- The bits of a byte in the order a four-wire bus carries them (R58). -/
def busBits (order : BitOrder) (b : Byte) : List Bool :=
  match order with
  | .msbFirst => byteBits b
  | .lsbFirst => (byteBits b).reverse

/-- The lane after a two-wire byte cell: eight bits and the acknowledge bit (R40). -/
def afterByteCell (i : Fin 4) (b : Byte) (ack : Bool) (l : Lane) : Lane :=
  (byteBits b ++ [!ack]).foldl (fun l x => l.twoBit i x) l

/-- The lane with its two-wire transfer in this phase. -/
def inPhase (ph : TwoPhase) (l : Lane) : Lane := { l with two := { l.two with phase := ph } }

/-- The lane with this flag set and its clear note withdrawn (R28, R30). -/
def flagged (bit : BitVec 9) (l : Lane) : Lane := { l with flags := l.flags ||| bit, notes := l.notes &&& ~~~bit }

/-- The pointer table with this entry in front (R48). -/
def pointerInFront (t : BitVec 10) (p : BitVec 16) (entries : List (BitVec 10 × BitVec 16)) :
    List (BitVec 10 × BitVec 16) :=
  (t, p) :: (entries.filter fun e => e.1 ≠ t).take 7

/-- The lane after the release of its four-wire frame's select: the flag of R67, IDLE, and the decode context cleared. -/
def closedFour (l : Lane) : Lane :=
  { (match l.four.phase with
      | .latency .. => if l.four.cBits = [] then l else flagged 0x020 l
      | .data _ bytes =>
        if l.four.cBits ≠ [] then flagged 0x020 l else if bytes ≠ [] then flagged 0x002 l else l
      | .command _ | .contended => l) with
    state := .idle, four := ⟨false, [], [], 0, .command []⟩ }

/-! ## The service rotation, spelled from R89 -/

/-- The commands that wait at the LINK position (R175). -/
def rteCommands : List Cmd :=
  [.lookup, .walk, .walkFrom, .seed, .amend, .retire, .clearTable, .tableInfo, .hold, .watchSet, .trapSet]

/-- A unit of work waits at a position (R89, R100, R149 to R151, R190). The first seed after a settings block is none while a
request that the settings raised still waits (R190). -/
def hasWork (s : State) : Position → Prop
  | .lane i => (s.lanes[i]).request ≠ none ∨ (s.lanes[i]).slot ≠ none
  | .link => ∃ w ∈ s.ctl.waiting, w.cmd ∈ rteCommands
  | .display => ∃ rf, s.dse.refresh = some rf ∧ rf.phase ≠ .sending
  | .profile => ∃ l, s.pim.op = .load l ∧ (l.stage = .settings ∨ (l.stage = .seeding
      ∧ ¬ (l.next = 0 ∧ l.scope ≠ .seeds ∧ ∃ i : Fin 4, (s.lanes[i]).request ≠ none)))

/-- The place of a position in the rotation order (R89). -/
def turn : Position → Nat
  | .lane i => i.val
  | .link => 4
  | .display => 5
  | .profile => 6

/-- How many positions the rotation looks at, from the one after the position served last, before it comes to `p` (R89). -/
def turnsBefore (last p : Position) : Nat := (turn p + 6 - turn last) % 7

/-! ## Operands, spelled from R19, R110, R197, R200 and R201 -/

/-- A number as two bytes, most significant first (R196). -/
def twoBytes (n : Nat) : List Byte := [BitVec.ofNat 8 (n / 256), BitVec.ofNat 8 n]

/-- A number as four bytes, most significant first (R196). -/
def fourBytes (n : Nat) : List Byte := twoBytes (n / 65536) ++ twoBytes n

/-- The number in four bytes from offset `i`, most significant first (R196). -/
def fourAt (e : List Byte) (i : Nat) : Nat :=
  ((byteAt e i * 256 + byteAt e (i + 1)) * 256 + byteAt e (i + 2)) * 256 + byteAt e (i + 3)

/-- 1 for yes and 0 for no. -/
def oneIf (b : Bool) : Nat := if b then 1 else 0

/-- The pin map places that the roles of a kind take, by its code and a select count (R18, R56, R197). -/
def rolePlaces (kind selects : Nat) : List Nat :=
  if kind = 1 then [0, 1]
  else if kind = 2 then 2 :: (List.range selects).map (3 + ·) ++ [7, 8]
  else if kind = 3 then [9, 10]
  else []

/-- Some check of R19 after the lane number fails on the 24 configuration bytes. -/
abbrev ConfigRefused (e : List Byte) : Prop :=
  3 < byteAt e 0 ∨ 1 < byteAt e 3 ∨ 3 < byteAt e 6 ∨ 1 < byteAt e 7 ∨ 1 < byteAt e 9 ∨ 2 < byteAt e 10
    ∨ (byteAt e 0 ≠ 3 ∧ (byteAt e 1 ∉ [1, 2, 4] ∨ byteAt e 2 ∉ [1, 2]))
    ∨ (∃ n ∈ rolePlaces (byteAt e 0) (max 1 (min 4 (byteAt e 8))), 15 < byteAt e (13 + n))
    ∨ ∃ m ∈ rolePlaces (byteAt e 0) (max 1 (min 4 (byteAt e 8))),
        ∃ n ∈ rolePlaces (byteAt e 0) (max 1 (min 4 (byteAt e 8))), m ≠ n ∧ byteAt e (13 + m) = byteAt e (13 + n)

/-- What the map holds for an entry of another kind: 0 for one above 15 (R19). -/
def heldAs (n : Nat) : Nat := if n ≤ 15 then n else 0

/-- The codes of a configuration's kind, byte order, bit order, polarity and autoincrement mode (R196). -/
def configCodes (c : LaneConfig) : Nat × Nat × Nat × Nat × Nat :=
  (match c.kind with
    | .none => 0
    | .twoWire => 1
    | .fourWire => 2
    | .management => 3,
  match c.byteOrder with
    | .big => 0
    | .little => 1,
  match c.bitOrder with
    | .msbFirst => 0
    | .lsbFirst => 1,
  match c.polarity with
    | .readIsOne => 0
    | .readIsZero => 1,
  match c.autoinc with
    | .always => 0
    | .never => 1
    | .flag => 2)

/-- The configuration that accepted configuration bytes give, clamps applied (R18, R19, R197). What a select beyond the count
holds for an entry above 15 is left open (log 14). -/
abbrev ConfigGiven (e : List Byte) (c : LaneConfig) : Prop :=
  configCodes c = (byteAt e 0, byteAt e 3, byteAt e 7, byteAt e 9, byteAt e 10)
    ∧ c.w = (if byteAt e 0 = 3 then 2 else byteAt e 1) ∧ c.a = (if byteAt e 0 = 3 then 1 else byteAt e 2)
    ∧ c.activity = (e.getD 4 0).getLsbD 0 ∧ c.tenBit = (e.getD 5 0).getLsbD 0 ∧ c.clockMode = byteAt e 6
    ∧ c.selectCount = max 1 (min 4 (byteAt e 8)) ∧ c.latency = min 3 (byteAt e 11) ∧ c.preamble = min 32 (byteAt e 12)
    ∧ c.pins.twoClock.val = heldAs (byteAt e 13) ∧ c.pins.twoData.val = heldAs (byteAt e 14)
    ∧ c.pins.fourClock.val = heldAs (byteAt e 15)
    ∧ (∀ n : Fin 4, byteAt e (16 + n.val) ≤ 15 ∨ byteAt e 0 ≠ 2 →
      (c.pins.sel[n]).val = heldAs (byteAt e (16 + n.val)))
    ∧ c.pins.cdat.val = heldAs (byteAt e 20) ∧ c.pins.tdat.val = heldAs (byteAt e 21)
    ∧ c.pins.mgmtClock.val = heldAs (byteAt e 22) ∧ c.pins.mgmtData.val = heldAs (byteAt e 23)

/-- The `j`th 4-bit field of a stored lane entry (R201). -/
def halfAt (e : List Byte) (j : Nat) : Nat := byteAt e (2 + j / 2) / (if j % 2 = 0 then 16 else 1) % 16

/-- The fields of a stored lane entry that its kind's roles take, by its code and a select count (R201). -/
def roleHalves (kind selects : Nat) : List Nat :=
  if kind = 1 ∨ kind = 3 then [0, 1]
  else if kind = 2 then 0 :: (List.range selects).map (1 + ·) ++ [5, 6]
  else []

/-- The LANE-SET that a stored lane entry gives is refused (R19, R190, R201). -/
abbrev EntryRefused (e : List Byte) : Prop :=
  (byteAt e 0 / 64 ≠ 3 ∧ byteAt e 0 / 16 % 4 = 3) ∨ (byteAt e 0 / 64 = 2 ∧ byteAt e 1 % 4 = 3)
    ∨ ∃ m ∈ roleHalves (byteAt e 0 / 64) (byteAt e 1 / 8 % 4 + 1),
        ∃ n ∈ roleHalves (byteAt e 0 / 64) (byteAt e 1 / 8 % 4 + 1), m ≠ n ∧ halfAt e m = halfAt e n

/-- The configuration that an accepted lane entry gives: the fields of the other kinds at their reset values, and probe 0 for
a select beyond the stored count (R18, R201). -/
abbrev EntryGiven (e : List Byte) (c : LaneConfig) : Prop :=
  ∀ kind four, kind = byteAt e 0 / 64 → four = (fun n : Nat => if kind = 2 then n else 0) →
    configCodes c = (kind, byteAt e 0 / 4 % 2, four (byteAt e 1 / 32 % 2), four (byteAt e 1 / 4 % 2),
      four (byteAt e 1 % 4))
    ∧ c.w = (if kind = 3 then 2 else 2 ^ (byteAt e 0 / 16 % 4)) ∧ c.a = (if kind = 3 then 1 else byteAt e 0 / 8 % 2 + 1)
    ∧ c.activity = (e.getD 0 0).getLsbD 1 ∧ c.tenBit = (kind = 1 && (e.getD 1 0).getLsbD 0)
    ∧ c.clockMode = four (byteAt e 1 / 64) ∧ c.selectCount = four (byteAt e 1 / 8 % 4) + 1
    ∧ c.latency = four (min 3 (halfAt e 7)) ∧ c.preamble = (if kind = 3 then min 32 (byteAt e 1) else 32)
    ∧ c.pins.twoClock.val = (if kind = 1 then halfAt e 0 else 0)
    ∧ c.pins.twoData.val = (if kind = 1 then halfAt e 1 else 0)
    ∧ c.pins.fourClock.val = four (halfAt e 0)
    ∧ (∀ n : Fin 4, (c.pins.sel[n]).val = if n.val < c.selectCount then four (halfAt e (1 + n.val)) else 0)
    ∧ c.pins.cdat.val = four (halfAt e 5) ∧ c.pins.tdat.val = four (halfAt e 6)
    ∧ c.pins.mgmtClock.val = (if kind = 3 then halfAt e 0 else 0)
    ∧ c.pins.mgmtData.val = (if kind = 3 then halfAt e 1 else 0)

/-- The change set and the contents of an AMEND are refused (R110, R197). -/
abbrev AmendRefused (ops : List Byte) : Prop :=
  ∀ changes, changes = byteAt ops 4 * 256 + byteAt ops 5 →
    (changes.testBit 0 ∧ changes.testBit 1) ∨ (changes.testBit 2 ∧ changes.testBit 3)
      ∨ (changes.testBit 4 ∧ changes.testBit 5) ∨ (changes.testBit 6 ∧ changes.testBit 7)
      ∨ (changes.testBit 0 ∧ (byteAt ops 6 = 0 ∨ 12 < byteAt ops 6
        ∨ ∃ n, n < byteAt ops 6 ∧ (byteAt ops (7 + n) < 0x20 ∨ 0x7E < byteAt ops (7 + n))))

/-- The change that a set/clear pair of bits asks of a field (R110). -/
def pairAsks {α : Type} (set clear : Bool) (new : α) (old : α) : Option α :=
  if set then some new else if clear then some old else none

/-- The amendment that an accepted change set gives (R110, R197). -/
abbrev AmendGiven (ops : List Byte) (a : Amendment) : Prop :=
  ∀ changes, changes = byteAt ops 4 * 256 + byteAt ops 5 →
    a = { clearDiverged := changes.testBit 8, clearMismatched := changes.testBit 9, clearChanges := changes.testBit 10
          label := pairAsks (changes.testBit 0) (changes.testBit 1) (some ((ops.drop 7).take (byteAt ops 6))) none
          pinned := pairAsks (changes.testBit 4) (changes.testBit 5) true false
          notify := pairAsks (changes.testBit 6) (changes.testBit 7) true false
          expectation := pairAsks (changes.testBit 2) (changes.testBit 3)
            (some ⟨BitVec.ofNat 32 (fourAt ops 19), BitVec.ofNat 32 (fourAt ops 23)⟩) none }

/-! ## Answers and images, spelled from R193, R196, R198, R200 and R201 -/

/-- A key in its four bytes (R196). -/
def keyBytes (k : Key) : List Byte := twoBytes (k.lane.val * 16384 + k.target.toNat) ++ twoBytes k.register.toNat

/-- A value in its four bytes, zeros where it is absent (R196). -/
def valueBytes (v : Option Word) : List Byte := fourBytes (v.elim 0 BitVec.toNat)

/-- The 48 bytes of a record composed at an epoch (R104, R198). -/
def recordBytes (epoch : Nat) (r : Record) : List Byte :=
  keyBytes r.key
    ++ [BitVec.ofNat 8 r.width,
      BitVec.ofNat 8 (oneIf r.seen.isSome + 2 * oneIf r.written.isSome + 4 * oneIf r.held.isSome
        + 8 * oneIf (r.held = some .none) + 16 * oneIf r.expectation.isSome + 32 * oneIf r.label.isSome
        + 64 * oneIf r.lastChange.isSome + 128 * oneIf r.watch.isSome),
      BitVec.ofNat 8 (oneIf (r.seen.any fun x => x.origin = .read) + 2 * oneIf r.pinned + 4 * oneIf r.notify
        + 8 * oneIf r.diverged + 16 * oneIf r.mismatched + 32 * oneIf r.unverified),
      BitVec.ofNat 8 (16 * r.label.elim 0 List.length + r.watch.elim 0 Fin.val)]
    ++ valueBytes (r.seen.map fun x => x.value) ++ valueBytes r.written
    ++ valueBytes (match r.held with
      | some (.value v) => some v
      | some .none | none => none)
    ++ valueBytes (r.expectation.map fun x => x.expected) ++ valueBytes (r.expectation.map fun x => x.mask)
    ++ r.label.elim (List.replicate 12 0) (column 12)
    ++ twoBytes (decayedHeat r epoch) ++ twoBytes r.changes
    ++ twoBytes (r.lastChange.elim 65535 fun e => min 65535 (epoch - e)) ++ twoBytes (min 65535 (epoch - r.lastAccess))

/-- The bytes of the cause set: the event causes, and WATCH while a slot is PENDING or DETACHED (R132, R196). -/
def causeBytes (w : Wta) : List Byte :=
  twoBytes (2 * (w.causes.toNat / 2) + oneIf (w.slots.toList.any fun x => match x with
    | .pending .. | .detached .. => true
    | .free | .armed _ => false))

/-- The codes of the profile operation in flight and of its store stage, which is 0 unless STORE (R196, R198). -/
def operationCodes : ProfileOp → Nat × Nat
  | .none => (0, 0)
  | .load l => (match l.scope with
    | .startUp => 1
    | .seeds => 2
    | .all => 3, 0)
  | .store stage => (4, match stage with
    | .invalidate => 0
    | .erase => 1
    | .program => 2
    | .verify => 3
    | .commit => 4)

/-- The 16 bytes of PROFILE-STATUS: the operation in flight; the progress, present in a load after its judgement; and the last
outcome, all zeros where there is none (R195, R196, R198). -/
def profileBytes (p : Pim) : List Byte :=
  [BitVec.ofNat 8 (operationCodes p.op).1, BitVec.ofNat 8 (operationCodes p.op).2]
    ++ (match p.op with
      | .load ⟨_, _, some v, _, loaded, skipped, _⟩ =>
        [1, BitVec.ofNat 8 (resultCode v)] ++ twoBytes loaded ++ twoBytes skipped
      | _ => [0, 0, 0, 0, 0, 0])
    ++ (match p.last with
      | none => [0, 0, 0, 0, 0, 0, 0, 0]
      | some (.load scope v loaded skipped) =>
        [1, match scope with
          | .startUp => 0
          | .seeds => 1
          | .all => 2,
        BitVec.ofNat 8 (resultCode v)] ++ twoBytes loaded ++ twoBytes skipped ++ [0]
      | some (.store failed seeds truncated) =>
        [1, 3, BitVec.ofNat 8 (oneIf failed)] ++ twoBytes seeds ++ [0, 0, BitVec.ofNat 8 (oneIf truncated)])

/-- The code of a trap mode (R196). -/
def trapModeCode : TrapMode → Nat
  | .off => 0
  | .notify => 1
  | .exclude => 2

/-- The code of a trap direction (R196). -/
def trapDirCode : TrapDir → Nat
  | .write => 0
  | .read => 1
  | .both => 2

/-- The 16 bytes of a trap window (R198). -/
def windowBytes (t : Trap) : List Byte :=
  [BitVec.ofNat 8 (trapModeCode t.mode), BitVec.ofNat 8 t.lane.val] ++ twoBytes t.target.toNat ++ twoBytes t.low
    ++ twoBytes t.high ++ [BitVec.ofNat 8 (trapDirCode t.dir)] ++ twoBytes t.count
    ++ (match t.first with
      | none => [0, 0, 0, 0, 0]
      | some k => 1 :: keyBytes k)

/-- The code of a wake edge (R196). -/
def wakeEdgeCode : WakeEdge → Nat
  | .none => 0
  | .rising => 1
  | .falling => 2
  | .either => 3

/-- The 25 bytes of POWER-SET, as held (R197, R198). -/
def powerBytes (p : Pwu) : List Byte :=
  twoBytes p.dim ++ twoBytes p.dark ++ twoBytes p.sleep
    ++ p.wakeEdges.toList.map (fun e => BitVec.ofNat 8 (wakeEdgeCode e))
    ++ [BitVec.ofNat 8 (oneIf p.holdkeyWake), BitVec.ofNat 8 (oneIf p.keyActivity),
      BitVec.ofNat 8 (oneIf p.linkActivity)]

/-- The 24 configuration bytes of a lane, as held (R197, R198). -/
def configBytes (c : LaneConfig) : List Byte :=
  let (kind, byteOrder, bitOrder, polarity, autoinc) := configCodes c
  ([kind, c.w, c.a, byteOrder, oneIf c.activity, oneIf c.tenBit, c.clockMode, bitOrder, c.selectCount, polarity, autoinc,
      c.latency, c.preamble, c.pins.twoClock.val, c.pins.twoData.val, c.pins.fourClock.val]
    ++ c.pins.sel.toList.map Fin.val
    ++ [c.pins.cdat.val, c.pins.tdat.val, c.pins.mgmtClock.val, c.pins.mgmtData.val]).map (BitVec.ofNat 8)

/-- The six bytes of a stored lane entry (R201). -/
def storedLane (l : Lane) : List Byte :=
  let (kind, byteOrder, bitOrder, polarity, autoinc) := configCodes l.cfg
  let sel (n : Fin 4) : Nat := if n.val < l.cfg.selectCount then (l.cfg.pins.sel[n]).val else 0
  [64 * kind + 16 * (l.cfg.w / 2) + 8 * (l.cfg.a - 1) + 4 * byteOrder + 2 * oneIf l.cfg.activity + oneIf l.enabled].map
      (BitVec.ofNat 8)
    ++ (match l.cfg.kind with
      | .none => [0, 0, 0, 0, 0]
      | .twoWire => [oneIf l.cfg.tenBit, 16 * l.cfg.pins.twoClock.val + l.cfg.pins.twoData.val, 0, 0, 0]
      | .fourWire =>
        [64 * l.cfg.clockMode + 32 * bitOrder + 8 * (l.cfg.selectCount - 1) + 4 * polarity + autoinc,
          16 * l.cfg.pins.fourClock.val + sel 0, 16 * sel 1 + sel 2, 16 * sel 3 + l.cfg.pins.cdat.val,
          16 * l.cfg.pins.tdat.val + l.cfg.latency]
      | .management => [l.cfg.preamble, 16 * l.cfg.pins.mgmtClock.val + l.cfg.pins.mgmtData.val, 0, 0, 0]).map
      (BitVec.ofNat 8)

/-- The six bytes of a stored trap window (R200). -/
def storedWindow (t : Trap) : List Byte :=
  twoBytes (16384 * trapModeCode t.mode + 4096 * trapDirCode t.dir + 1024 * t.lane.val + t.target.toNat)
    ++ twoBytes t.low ++ twoBytes t.high

/-- The four bytes of a stored view row: 3 times the binding plus the format in bits 13 to 10 (R200). -/
def storedRow (r : Row) : List Byte :=
  let format := match r.format with
    | .hex => 0
    | .decimal => 1
    | .binary => 2
  match r.binding with
  | .empty => twoBytes (1024 * format) ++ [0, 0]
  | .record k => twoBytes (k.lane.val * 16384 + 1024 * (3 + format) + k.target.toNat) ++ twoBytes k.register.toNat
  | .probe p => twoBytes (1024 * (6 + format)) ++ [0, BitVec.ofNat 8 p.val]
  | .watch n => twoBytes (1024 * (9 + format)) ++ [0, BitVec.ofNat 8 n.val]
  | .auto => twoBytes (1024 * (12 + format)) ++ [0, 0]

/-- The 128 bytes of the settings block from the present values (R193, R200). -/
def settingsBytes (s : State) : List Byte :=
  [(s.pfe.banks[0]).code, (s.pfe.banks[0]).width, (s.pfe.banks[1]).code, (s.pfe.banks[1]).width].map (BitVec.ofNat 8)
    ++ s.lanes.toList.flatMap storedLane ++ s.wta.traps.toList.flatMap storedWindow
    ++ s.dse.rows.toList.flatMap storedRow
    ++ ([s.pwu.dim, s.pwu.dark, s.pwu.sleep]
      ++ ([0, 4, 8, 12] : List (Fin 16)).map (fun i : Fin 16 =>
        64 * wakeEdgeCode s.pwu.wakeEdges[i] + 16 * wakeEdgeCode s.pwu.wakeEdges[i + 1]
          + 4 * wakeEdgeCode s.pwu.wakeEdges[i + 2] + wakeEdgeCode s.pwu.wakeEdges[i + 3])
      ++ [16 * s.dse.runLevel + s.dse.dimLevel,
        s.dse.window + 16 * oneIf s.pwu.holdkeyWake + 32 * oneIf s.pwu.keyActivity + 64 * oneIf s.pwu.linkActivity]).map
      (BitVec.ofNat 8)
    ++ twoBytes s.wta.enables.toNat ++ [0]

/-- The 32 bytes of a seed (R193, R200). -/
def storedSeed (r : Record) : List Byte :=
  keyBytes r.key
    ++ [BitVec.ofNat 8 r.width, BitVec.ofNat 8 (oneIf r.pinned + 2 * oneIf r.notify),
      BitVec.ofNat 8 (oneIf r.expectation.isSome)]
    ++ valueBytes (r.expectation.map fun x => x.expected) ++ valueBytes (r.expectation.map fun x => x.mask)
    ++ [BitVec.ofNat 8 (r.label.elim 0 List.length)] ++ column 12 (r.label.getD []) ++ [0, 0, 0, 0]

end Sys2Proof.Machine
end

