-- ==== Sys2Proof/Certificates/Slice0/Obligations.lean ====
section
/-! DEFINITION. The statements for the provers, taken from the rules of spec/. -/

open Sys2Proof Sys2Proof.Machine

/-! ## Steps and resets -/

/-- A step is the command at the front of the queue, executed on the part with the rest of the queue; on an empty queue the
part idles (95_what_each_step_holds.md: each step is whole and indivisible; the queue is the model's, log 1). -/
def Obligations.StepRunsTheFrontCommand : Prop :=
  (∀ (s : State) (c : Instr) (cs : List Instr), step (s.withPending (c :: cs)) = exec c (s.withPending cs))
    ∧ ∀ s : State, step (s.withPending []) = .next (s.withPending [])

/-- The part right after reset meets every law. The state right after reset is the model's choice where the spec
leaves input levels and the flash open (log 5, log 6, log 7). -/
def Obligations.ResetMeetsTheLaws : Prop :=
  TableLaw State.reset ∧ BindingLaw State.reset ∧ RecordLaw State.reset ∧ CaptureLaw State.reset ∧ LanesLaw State.reset
    ∧ WidthLaw State.reset ∧ PowerLaw State.reset ∧ PanelLaw State.reset ∧ SettingsLaw State.reset
    ∧ FlashLaw State.reset ∧ LinkLaw State.reset

/-- Power-on, an assertion of the RESET input and a fall of the supply begin a full reset with their cause: every
block takes its reset values (R181 with R16, R37, R116, R117, R127, R132, R135, R157, R171, R185, R187). These clauses are
the model's choices: the part is then held until its release (log 24); pins, flash and queue stay (log 6, log 7, log 1); the
reset cause record reads BLANK with counts 0 until the start-up load completes (log 25); with LSEL low no byte cell is in
progress and LDO is not driven (log 23). -/
def Obligations.FullResetTakesEveryBlock : Prop :=
  ∀ s : State, s.inReset = false →
    (∃ t, exec .powerOn s = .next t ∧ AfterFullReset .powerOn s.ctl.lselLow s t)
      ∧ (∃ t, exec .resetPin s = .next t ∧ AfterFullReset .resetPin s.ctl.lselLow s t)
      ∧ ∃ t, exec .supplyLow s = .next t ∧ AfterFullReset .supplyLow s.ctl.lselLow s t

/-- The release of a full reset: the filters see the raw levels, the epoch timer and the dim timer start, a HOLDKEY input
that is low starts a candidate that will be no press event, and the start-up load begins (R16, R86, R161, R171, R187). A
release when no reset is held changes nothing: the model's choice (log 3). -/
def Obligations.ResetReleaseStartsTheLoad : Prop :=
  ∀ s : State,
    (s.inReset = true → exec .resetRelease s = .next (settle
      { s with
        inReset := false
        pfe := { s.pfe with probes := Vector.ofFn fun i =>
          (s.pfe.probes[i]).filtered (s.pfe.bank i).width (decide (20 * (s.pfe.bank i).code ≤ s.pfe.pins[i])) }
        rte := { s.rte with epochTimer := true }
        pwu := { s.pwu with
          timer := if s.pwu.dim = 0 then none else some (.dim, s.pwu.dim)
          keyCandidate := if s.pwu.keyLow = true then some ⟨true, true⟩ else none }
        pim := { s.pim with op := .load ⟨.startUp, .reading, none, 0, 0, 0, []⟩ } }))
      ∧ (s.inReset = false → exec .resetRelease s = .next s)

/-- While a full reset is held the part follows its input levels and disregards everything else but the release. This is the
model's reading of R181 (log 24). -/
def Obligations.HeldResetFollowsInputsOnly : Prop :=
  ∀ s : State, s.inReset = true →
    exec .lselFallingEdge s = .next { s with ctl := { s.ctl with lselLow := true } }
      ∧ exec .lselRisingEdge s = .next { s with ctl := { s.ctl with lselLow := false } }
      ∧ (∀ low, exec (.holdkeyChange low) s = .next { s with pwu := { s.pwu with keyLow := low } })
      ∧ (∀ cs due, exec (.rawLevelChange ⟨cs, due⟩) s = .next { s with pfe := { s.pfe with
          pins := cs.foldl (fun v c => v.set c.probe c.millivolts) s.pfe.pins } })
      ∧ ∀ i, i ≠ .lselFallingEdge → i ≠ .lselRisingEdge → (∀ low, i ≠ .holdkeyChange low)
          → (∀ cs due, i ≠ .rawLevelChange ⟨cs, due⟩) → i ≠ .resetRelease → exec i s = .next s

/-! ## LSEL and the byte cells -/

/-- LSEL falls: a transaction opens in phase COMMAND. In SLEEP it is also a wake event of the source LSEL, and the
first one begins wake; a sleep entry in flight is aborted, and the part is back in RUN with its enabled lanes
restarted (R164, R166, R173). The first bit of 0xFF stands on LDO (R172). A fall with LSEL low already changes nothing
(log 3). -/
def Obligations.LselFallOpensATransaction : Prop :=
  ∀ s : State, s.inReset = false →
    (s.ctl.lselLow = true → exec .lselFallingEdge s = .next (settle s))
      ∧ (s.ctl.lselLow = false → s.pwu.op ≠ .sleepEntry → s.pwu.power ≠ .sleep →
          exec .lselFallingEdge s = .next (settle
            { s with ctl := { s.ctl with
              lselLow := true, phase := .command, txn := Txn.empty, cell := some ⟨[], false, 0xFF, false⟩ } }))
      ∧ (s.ctl.lselLow = false → s.pwu.op ≠ .sleepEntry → s.pwu.power = .sleep →
          exec .lselFallingEdge s = .next (settle
            { s with
              ctl := { s.ctl with lselLow := true, phase := .command, txn := Txn.empty, cell := some ⟨[], false, 0xFF, false⟩ }
              pwu := { s.pwu with op := .wake, wakePending := { s.pwu.wakePending with lsel := true } } }))
      ∧ (s.ctl.lselLow = false → s.pwu.op = .sleepEntry →
          ∃ t, exec .lselFallingEdge s = .next t
            ∧ t.ctl = { s.ctl with
                lselLow := true, phase := .command, txn := Txn.empty, cell := some ⟨[], false, 0xFF, false⟩ }
            ∧ t.pwu = { s.pwu with
                power := .run, op := .none, deferred := false
                timer := if s.pwu.dim = 0 then none else some (.dim, s.pwu.dim) }
            ∧ (∀ i : Fin 4, t.lanes[i] =
                if (s.lanes[i]).enabled then (s.lanes[i]).restart .marking s.pfe.levels else s.lanes[i])
            ∧ (startUpDone s = true → t.dse.panelOn = true)
            ∧ t.pfe = s.pfe ∧ t.wta = s.wta ∧ t.pim = s.pim ∧ t.rte.table = s.rte.table)

/-- LSEL rises: the transaction ends, its record is dropped, and a command that waits goes on without it. An answer cut
before its last byte has no consuming effect, and the notes made for it are dropped. An OK answer to RESTART is followed by
a full reset of cause COMMAND, one to SLEEP by sleep entry, which stops the lanes, whether the answer was sent whole or was
cut; with an operation of the PWU in flight, or in SLEEP, no sleep entry begins (R36, R60, R162, R170, R173, R177, R178,
R183). These clauses are the model's choices: a rise with LSEL high already changes nothing (log 3); the reset by RESTART is
held until its release (log 24), and its record reads BLANK with counts 0 (log 25); sleep entry does not complete in the same
step (log 22). -/
def Obligations.LselRiseEndsTheTransaction : Prop :=
  ∀ s : State, s.inReset = false →
    (s.ctl.lselLow = false → exec .lselRisingEdge s = .next (settle s))
      ∧ (s.ctl.lselLow = true → s.ctl.txn.restarts = false → s.ctl.txn.sleeps = false →
          (s.ctl.phase ≠ .answer → exec .lselRisingEdge s = .next (settle (cutOff s)))
          ∧ (s.ctl.phase = .answer → exec .lselRisingEdge s = .next (settle
              (match s.ctl.txn.answered with
                | some .takeWatch => match slotOf (byteAt s.ctl.txn.operands 0) with
                  | some i => { cutOff s with wta := { s.wta with slots := s.wta.slots.set i (s.wta.slots[i]).lost } }
                  | none => cutOff s
                | some .walk => { cutOff s with rte := { s.rte with walkNote := none } }
                | some .probeRead => { cutOff s with pfe := { s.pfe with
                    probes := Vector.ofFn fun i => { s.pfe.probes[i] with clearNote := false } } }
                | some .laneStatus => match laneOf (byteAt s.ctl.txn.operands 0) with
                  | some i => { cutOff s with lanes := s.lanes.set i { s.lanes[i] with notes := 0 } }
                  | none => cutOff s
                | some .trapRead => match laneOf (byteAt s.ctl.txn.operands 0) with
                  | some i => { cutOff s with wta := { s.wta with
                      traps := s.wta.traps.set i { s.wta.traps[i] with clearNote := none } } }
                  | none => cutOff s
                | some .powerStatus => { cutOff s with pwu := { s.pwu with clearNote := none } }
                | _ => cutOff s))))
      ∧ (s.ctl.lselLow = true → s.ctl.txn.restarts = true →
          ∃ t, exec .lselRisingEdge s = .next t ∧ AfterFullReset .command false s t)
      ∧ (s.ctl.lselLow = true → s.ctl.txn.restarts = false → s.ctl.txn.sleeps = true →
          (s.ctl.phase = .answer → s.ctl.txn.command = some 0x42) → (s.pwu.op ≠ .none ∨ s.pwu.power = .sleep) →
          exec .lselRisingEdge s = .next (settle (cutOff s)))
      ∧ (s.ctl.lselLow = true → s.ctl.txn.restarts = false → s.ctl.txn.sleeps = true →
          (s.ctl.phase = .answer → s.ctl.txn.command = some 0x42) → s.pwu.op = .none → s.pwu.power ≠ .sleep →
          ∃ t, exec .lselRisingEdge s = .next t ∧ t.ctl = (cutOff s).ctl
            ∧ t.pwu = { s.pwu with power := .dark, op := .sleepEntry, timer := none, deferred := false }
            ∧ t.dse.panelOn = false
            ∧ (∀ i : Fin 4, t.lanes[i] = stoppedLane s.pfe.levels s.lanes[i])
            ∧ t.pfe = s.pfe ∧ t.wta = s.wta ∧ t.pim = s.pim ∧ t.rte.table = s.rte.table)

/-- A byte cell completes with LSEL low, by the phase of the transaction: COMMAND and LENGTH take their bytes, OPERANDS
collects, WAITING sends WAIT, ANSWER sends the next byte of the answer, TRAILER sends 0xFF, and the cells of a transaction
that is closed are disregarded (R173, R176, R177, R185). Each rising edge of LCLK takes one bit of LDI, most significant bit
first, and each falling edge presents the next bit of the cell's byte on LDO, or the first one of the next byte: eight of
both are the whole cell, and an answer composed inside a cell begins in the next one (R172, R176). The cells that take a
command are those of `Obligations.ByteCellsSpellTheRow`. That a cell with LSEL high changes nothing is log 3; that a row of
the table comes whole, or one edge at a time, and that with no cell in progress, as after a reset released with LSEL low, the
cells and edges are disregarded, is log 23 (R185). -/
def Obligations.ByteCellMovesThePhase : Prop :=
  (∀ s : State, s.inReset = false → s.ctl.lselLow = false → ∀ p, exec (.byteCell p) s = .next (settle s))
    ∧ (∀ (s : State) (b o : Byte) (k a : Bool), s.inReset = false → s.ctl.lselLow = true →
        s.ctl.cell = some ⟨[], k, o, a⟩ →
        (runAll ((byteBits b).flatMap fun x => [.byteCell .fall, .byteCell (.rise x)]) (settle s)
            = exec (.byteCell (.whole b)) (settle s))
          ∧ (k = true →
            (s.ctl.phase = .closed ∨ s.ctl.phase = .trailer → exec (.byteCell (.whole b)) s = .next (settle
                { s with ctl := { s.ctl with cell := some ⟨[], true, 0xFF, false⟩ } }))
            ∧ (s.ctl.phase = .command → exec (.byteCell (.whole b)) s = .next (settle
                { s with ctl := { s.ctl with
                    phase := .length, cell := some ⟨[], true, 0xFF, false⟩
                    txn := { s.ctl.txn with command := some b } } }))
            ∧ (s.ctl.phase = .length → 1 ≤ b.toNat → b.toNat ≤ 64 → exec (.byteCell (.whole b)) s = .next (settle
                { s with ctl := { s.ctl with
                    phase := .operands, cell := some ⟨[], true, 0xFF, false⟩
                    txn := { s.ctl.txn with len := some b } } }))
            ∧ (∀ n, s.ctl.phase = .operands → s.ctl.txn.len = some n → s.ctl.txn.operands.length + 1 < n.toNat →
                exec (.byteCell (.whole b)) s = .next (settle
                  { s with ctl := { s.ctl with
                      cell := some ⟨[], true, 0xFF, false⟩
                      txn := { s.ctl.txn with operands := s.ctl.txn.operands ++ [b] } } }))
            ∧ (s.ctl.phase = .waiting → exec (.byteCell (.whole b)) s = .next (settle
                { s with ctl := { s.ctl with cell := some ⟨[], true, 0x00, false⟩ } }))
            ∧ (∀ next, s.ctl.phase = .answer → s.ctl.txn.sent + 1 < s.ctl.txn.answer.length →
                s.ctl.txn.answer[s.ctl.txn.sent]? = some next → exec (.byteCell (.whole b)) s = .next (settle
                  { s with ctl := { s.ctl with
                      cell := some ⟨[], true, next, true⟩, txn := { s.ctl.txn with sent := s.ctl.txn.sent + 1 } } }))
            ∧ (s.ctl.phase = .answer → s.ctl.txn.answer.length ≤ s.ctl.txn.sent + 1 →
                exec (.byteCell (.whole b)) s = exec .completeDelivery s)))
    ∧ (∀ (s : State) (c : Cell), s.inReset = false → s.ctl.lselLow = true → s.ctl.cell = some c →
        (s.ldo = some (c.out.getLsbD
            (if c.clock = false then 7 - c.bits.length else if c.bits = [] then 0 else 8 - c.bits.length)))
          ∧ (∀ x, c.clock = true → exec (.byteCell (.rise x)) s = .next (settle s))
          ∧ (∀ x, c.clock = false → c.bits.length < 7 → exec (.byteCell (.rise x)) s = .next (settle
              { s with ctl := { s.ctl with cell := some { c with bits := c.bits ++ [x], clock := true } } }))
          ∧ (c.clock = false → exec (.byteCell .fall) s = .next (settle s))
          ∧ (c.clock = true → c.bits ≠ [] → exec (.byteCell .fall) s = .next (settle
              { s with ctl := { s.ctl with cell := some { c with clock := false } } }))
          ∧ (c.clock = true → c.bits = [] → exec (.byteCell .fall) s = .next (settle
              { s with ctl := { s.ctl with cell := some (match s.ctl.phase with
                | .waiting => ⟨[], false, 0x00, false⟩
                | .answer => ⟨[], false, s.ctl.txn.answer.getD s.ctl.txn.sent 0xFF, true⟩
                | _ => ⟨[], false, 0xFF, false⟩) } }))
          ∧ (∀ b, c.clock = false ∨ c.bits ≠ [] → c.bits.isPrefixOf (byteBits b) = true → c.answers = false →
              s.ctl.phase = .answer → exec (.byteCell (.whole b)) s = .next (settle
                { s with ctl := { s.ctl with cell := some ⟨[], true, c.out, false⟩ } })))
    ∧ ∀ s : State, s.ctl.cell = none → s.ldo = none
        ∧ (s.inReset = false → ∀ p, exec (.byteCell p) s = .next (settle s))

/-- The bytes of a command frame clocked in one by one from phase COMMAND, on a part whose RTE has taken up what waits, do
what the command's row does: a row is the last of its frame's byte cells (R173, R174; log 2). -/
def Obligations.ByteCellsSpellTheRow : Prop :=
  ∀ (s : State) (f : Frame), s.inReset = false → s.ctl.lselLow = true → s.ctl.phase = .command →
    s.ctl.txn = Txn.empty → s.ctl.cell = some ⟨[], false, 0xFF, false⟩ → settle s = s → f.wellFormed = true →
    (∀ c : Cmd, runAll ((f.bytes c.code).map fun b => .byteCell (.whole b)) s = exec (takenRow c f) s)
      ∧ ∀ byte, Cmd.ofByte byte = none →
        runAll ((f.bytes byte).map fun b => .byteCell (.whole b)) s = exec (.unknownCommand byte f) s

/-- The last byte of an answer has been sent with LSEL low: the trailer follows, and only the seven consuming commands
have an effect, each at this moment (R12, R30, R107, R124, R131, R169, R178, R180). That the event changes nothing
where no answer is being sent is the model's (log 3). -/
def Obligations.CompleteDeliveryConsumes : Prop :=
  ∀ s : State, s.inReset = false →
    (¬ (s.ctl.lselLow = true ∧ s.ctl.phase = .answer) → exec .completeDelivery s = .next (settle s))
      ∧ (s.ctl.lselLow = true → s.ctl.phase = .answer → exec .completeDelivery s = .next (settle
          (match s.ctl.txn.answered with
            | some .takeWatch => match slotOf (byteAt s.ctl.txn.operands 0) with
              | some i => { sentWhole s with wta := { s.wta with slots := s.wta.slots.set i (s.wta.slots[i]).delivered } }
              | none => sentWhole s
            | some .walk => { sentWhole s with rte := { s.rte with
                cursor := s.rte.walkNote.getD s.rte.cursor, walkNote := none } }
            | some .probeRead => { sentWhole s with pfe := { s.pfe with
                probes := Vector.ofFn fun i =>
                  { s.pfe.probes[i] with
                    glitch := (s.pfe.probes[i]).glitch && !(s.pfe.probes[i]).clearNote, clearNote := false } } }
            | some .laneStatus => match laneOf (byteAt s.ctl.txn.operands 0) with
              | some i => { sentWhole s with
                  lanes := s.lanes.set i
                    { s.lanes[i] with flags := (s.lanes[i]).flags &&& ~~~(s.lanes[i]).notes, notes := 0 } }
              | none => sentWhole s
            | some .trapRead => match laneOf (byteAt s.ctl.txn.operands 0) with
              | some i => match (s.wta.traps[i]).clearNote with
                | some n => { sentWhole s with wta := { s.wta with
                    traps := s.wta.traps.set i
                      { s.wta.traps[i] with count := n.count, first := n.first, clearNote := none } } }
                | none => sentWhole s
              | none => sentWhole s
            | some .powerStatus => { sentWhole s with pwu := { s.pwu with
                clearNote := none
                wakePending := match s.pwu.clearNote with
                  | some n => ⟨s.pwu.wakePending.probes &&& ~~~n.probes, s.pwu.wakePending.holdkey && !n.holdkey,
                      s.pwu.wakePending.lsel && !n.lsel⟩
                  | none => s.pwu.wakePending } }
            | some .release => { sentWhole s with ctl := { (sentWhole s).ctl with link := .ready } }
            | _ => sentWhole s)))

/-! ## Taking a command -/

/-- The link-level checks, in their order, each answering at once with no effect but the activity event of the taking: a byte
that names no command is UNKNOWN, a HELD link answers HELD to all but IDENTIFY and RELEASE, and an operand length that is not
the command's is BAD-OPERAND (R174, R179). -/
def Obligations.LinkLevelChecks : Prop :=
  ∀ (s : State) (f : Frame), Opened s → s.pwu.power = .run → f.wellFormed = true →
    (∀ byte, Cmd.ofByte byte = none →
        exec (.unknownCommand byte f) s = .next (settle (answeredAtOnce byte f ⟨.unknown, []⟩ s)))
      ∧ (∀ c, s.ctl.link = .held → c ≠ .identify → c ≠ .release →
        exec (takenRow c f) s = .next (settle (answeredAtOnce c.code f ⟨.held, []⟩ s)))
      ∧ ∀ c, (s.ctl.link = .ready ∨ c = .identify ∨ c = .release) → f.len.toNat ≠ c.operandLength →
        exec (takenRow c f) s = .next (settle (answeredAtOnce c.code f ⟨.badOperand, []⟩ s))

/-- The taking of a command is an activity event while link activity is yes: from DIM and DARK the part is in RUN
afterwards with the dim timer fresh and no expiry deferred; with link activity no, the power state, the timer and the
deferred mark stay, but for what a frame on an activity source does that a PROBE-SET's new settings complete (R35,
R160, R174). POWER-SET judges link activity after its write (`Obligations.PowerCommands`). That the activity comes
before the service is the model's order (log 28). -/
def Obligations.TakingIsAnActivityEvent : Prop :=
  ∀ (s : State) (c : Cmd) (ops : List Byte), Opened s → s.ctl.link = .ready → ops.length = c.operandLength →
    (∀ w ∈ s.ctl.waiting, ownerOf w.cmd w.operands ≠ ownerOf c ops) → c ≠ .powerSet →
    ∃ t, exec (takenRow c (Frame.ofOperands ops)) s = .next t
      ∧ (s.pwu.linkActivity = true →
          t.pwu.power = .run ∧ t.pwu.deferred = false
            ∧ t.pwu.timer = if s.pwu.dim = 0 then none else some (.dim, s.pwu.dim))
      ∧ (s.pwu.linkActivity = false → c ≠ .probeSet →
          t.pwu.power = s.pwu.power ∧ t.pwu.deferred = s.pwu.deferred ∧ t.pwu.timer = s.pwu.timer)

/-- Fourteen commands are taken at one moment and served at another: taken in RUN, each waits for its owner, and its
transaction sends WAIT (R174, R176). LANE-STATUS of a lane above 3 names no owner and is answered BAD-OPERAND at once
(R30). The two moments are the model's (log 2, log 29). Eleven of them wait at LINK among the seven positions of the RTE:
when the RTE is free it takes up the first position, from the one after the position served last, at which a unit waits, and
none when none does; a lane's request comes before its posting, and no seed waits while a request of the settings block does
(R89, R90, R100, R190). A unit taken up keeps its turn while it waits: the model's choice (log 21), and so is that a lane's unit
out of its turn changes nothing (log 3). -/
def Obligations.TwoMomentCommandsWait : Prop :=
  (∀ s : State,
    settle s = { s with rte := { s.rte with serving := (settle s).rte.serving } }
      ∧ (∀ p, s.rte.serving = some p → hasWork s p → (settle s).rte.serving = some p)
      ∧ ((∀ p, s.rte.serving = some p → ¬ hasWork s p) →
        (∀ p, (settle s).rte.serving = some p ↔
          hasWork s p ∧ ∀ q, hasWork s q → turnsBefore s.rte.last p ≤ turnsBefore s.rte.last q)
        ∧ ((settle s).rte.serving = none ↔ ∀ p, ¬ hasWork s p))
      ∧ (s.inReset = false → ∀ i : Fin 4,
        ((s.lanes[i]).request ≠ none → exec (.absorption i) s = .next (settle s))
        ∧ (s.rte.serving ≠ some (.lane i) → exec (.absorption i) s = .next (settle s)
          ∧ exec (.marking i) s = .next (settle s) ∧ exec (.retirement i) s = .next (settle s))))
  ∧ ∀ (s : State) (ops : List Byte) (f : Frame), f = Frame.ofOperands ops →
    (Hears .probeRead ops s → exec (.probeRead .taken f) s = .next (settle (leftWaiting .probeRead f s)))
      ∧ (Hears .laneStatus ops s → byteAt ops 0 ≤ 3 →
          exec (.laneStatus .taken f) s = .next (settle (leftWaiting .laneStatus f s)))
      ∧ (Hears .laneStatus ops s → 3 < byteAt ops 0 →
          exec (.laneStatus .taken f) s = .next (settle (answeredAtOnce 0x1A f ⟨.badOperand, []⟩ s)))
      ∧ (Hears .lookup ops s → exec (.lookup .taken f) s = .next (settle (leftWaiting .lookup f s)))
      ∧ (Hears .walk ops s → exec (.walk .taken f) s = .next (settle (leftWaiting .walk f s)))
      ∧ (Hears .walkFrom ops s → exec (.walkFrom .taken f) s = .next (settle (leftWaiting .walkFrom f s)))
      ∧ (Hears .seed ops s → exec (.seed .taken f) s = .next (settle (leftWaiting .seed f s)))
      ∧ (Hears .amend ops s → exec (.amend .taken f) s = .next (settle (leftWaiting .amend f s)))
      ∧ (Hears .retire ops s → exec (.retire .taken f) s = .next (settle (leftWaiting .retire f s)))
      ∧ (Hears .clearTable ops s → exec (.clearTable .taken f) s = .next (settle (leftWaiting .clearTable f s)))
      ∧ (Hears .tableInfo ops s → exec (.tableInfo .taken f) s = .next (settle (leftWaiting .tableInfo f s)))
      ∧ (Hears .hold ops s → exec (.hold .taken f) s = .next (settle (leftWaiting .hold f s)))
      ∧ (Hears .watchSet ops s → exec (.watchSet .taken f) s = .next (settle (leftWaiting .watchSet f s)))
      ∧ (Hears .trapSet ops s → exec (.trapSet .taken f) s = .next (settle (leftWaiting .trapSet f s)))
      ∧ (Hears .sleep ops s → exec (.sleep .taken f) s = .next (settle (leftWaiting .sleep f s)))

/-! ## Commands served at the taking -/

/-- IDENTIFY is answered at once, in HELD and in READY, with the fifteen bytes of the identity, and changes nothing else
(R182). The taking is the activity event of R160. -/
def Obligations.IdentifyGivesTheIdentity : Prop :=
  ∀ s : State, Opened s → s.pwu.power = .run → (∀ w ∈ s.ctl.waiting, ownerOf w.cmd w.operands ≠ .ctl) →
    exec (.identify ⟨0, []⟩) s = .next (settle (answeredAtOnce 0x01 ⟨0, []⟩
      ⟨.ok, [0x4C, 0x44, 0x4E, 0x57, 0x02, 0x6C, 0x01, (match s.ctl.link with
          | .held => 0
          | .ready => 1), 0x04, 0x00, 0x04, 0x10, 0x08, 0x04, 0x10]⟩ s))

/-- RELEASE, STATUS and PROFILE-STATUS give the reset cause record, the status and the profile state as they stand at
composition, their bytes spelled from R132, R195, R196 and R198, and change nothing else; a RELEASE is answered at once unless
the start-up load is in flight, and then waits for it. RESTART in READY is answered OK with an empty payload and leaves its full
reset for the rise of LSEL (`Obligations.LselRiseEndsTheTransaction`); until then the part goes on as before (R137, R180, R181,
R183, R195). -/
def Obligations.CtlCommandsAreAnswered : Prop :=
  ∀ s : State,
    (Opened s → s.pwu.power = .run → (∀ w ∈ s.ctl.waiting, ownerOf w.cmd w.operands ≠ .ctl) →
        (startUpDone s = true → exec (.release ⟨0, []⟩) s = .next (settle (answeredAtOnce 0x02 ⟨0, []⟩
          ⟨.ok, [BitVec.ofNat 8 (causeCode s.ctl.record.cause), BitVec.ofNat 8 (resultCode s.ctl.record.result)]
            ++ beBytes 2 s.ctl.record.loaded ++ beBytes 2 s.ctl.record.skipped⟩ s)))
        ∧ (startUpDone s = false →
            exec (.release ⟨0, []⟩) s = .next (settle (leftWaiting .release ⟨0, []⟩ s))))
      ∧ (Hears .status [] s → exec (.status ⟨0, []⟩) s = .next (settle (answeredAtOnce 0x03 ⟨0, []⟩
          ⟨.ok, causeBytes s.wta ++ twoBytes s.wta.enables.toNat
            ++ [1, 0, BitVec.ofNat 8 (oneIf s.rte.hold), BitVec.ofNat 8 (operationCodes s.pim.op).1]⟩ s)))
      ∧ (Hears .profileStatus [] s → exec (.profileStatus ⟨0, []⟩) s = .next (settle (answeredAtOnce 0x4A ⟨0, []⟩
          ⟨.ok, profileBytes s.pim⟩ s)))
      ∧ (Hears .restart [] s →
        exec (.restart ⟨0, []⟩) s = .next (settle (answeredAtOnce 0x0F ⟨0, []⟩ ⟨.ok, []⟩ s))
          ∧ (answeredAtOnce 0x0F ⟨0, []⟩ ⟨.ok, []⟩ s).ctl.txn.restarts = true)

/-- ACKNOWLEDGE clears the event causes its mask names and, when it names ADMIT, empties the first-refused capture;
ATTN-ENABLE writes the enable set. A mask with a bit that names no cause is refused and changes nothing (R134, R135). ATTN is
low exactly while an event cause is set and enabled, or WATCH is enabled and a slot is PENDING or DETACHED (R132, R136). -/
def Obligations.AttentionCommands : Prop :=
  (∀ s : State, s.attnLow = true ↔
      (∃ n : Fin 9, n ≠ 0 ∧ s.wta.causes.getLsbD n = true ∧ s.wta.enables.getLsbD n = true)
        ∨ (s.wta.enables.getLsbD 0 = true ∧ ∃ (i : Fin 8) (k : Key),
          (∃ v m t, s.wta.slots[i] = .pending k v m t) ∨ ∃ v m t, s.wta.slots[i] = .detached k v m t))
  ∧ ∀ (s : State) (ops : List Byte) (f : Frame) (m : BitVec 9), f = Frame.ofOperands ops →
    m = BitVec.ofNat 9 (natAt ops 0 2) →
    (Hears .acknowledge ops s →
        (512 ≤ natAt ops 0 2 →
          exec (.acknowledge f) s = .next (settle (answeredAtOnce 0x04 f ⟨.badOperand, []⟩ s)))
        ∧ (natAt ops 0 2 < 512 → exec (.acknowledge f) s = .next (settle
            { answeredAtOnce 0x04 f
                ⟨.ok, setBytes (Wta.causeSet { s.wta with causes := s.wta.causes &&& ~~~m })⟩ s with
              wta := { s.wta with causes := s.wta.causes &&& ~~~m }
              rte := { s.rte with capture := if m.getLsbD 4 then none else s.rte.capture } })))
      ∧ (Hears .attnEnable ops s →
        (512 ≤ natAt ops 0 2 →
          exec (.attnEnable f) s = .next (settle (answeredAtOnce 0x05 f ⟨.badOperand, []⟩ s)))
        ∧ (natAt ops 0 2 < 512 → exec (.attnEnable f) s = .next (settle
            { answeredAtOnce 0x05 f ⟨.ok, setBytes m ++ setBytes s.wta.causeSet⟩ s with
              wta := { s.wta with enables := m } })))

/-- PROBE-SET writes the bank it names: the threshold code nearest the millivolts asked, ties up, clamped into 10 to 250, and
the width clamped into 0 to 15; candidates due at that moment are qualified (log 26), the filters of that bank's probes then
see the raw levels under the new settings, and every edge of the moment reaches a lane that reads as one change (R6). The answer
gives the bank as applied. A bank above 1 is refused (R9, R10). These are the model's choices: the answer stands ready at the
taking, with no WAIT byte (log 11); a probe with two edges at that moment counts both and shows the lanes neither (log 32). -/
def Obligations.ProbeSetWritesABank : Prop :=
  ∀ (s : State) (ops : List Byte) (f : Frame), f = Frame.ofOperands ops → Hears .probeSet ops s →
    (1 < byteAt ops 0 → exec (.probeSet f) s = .next (settle (answeredAtOnce 0x10 f ⟨.badOperand, []⟩ s)))
      ∧ ∀ b : Fin 2, byteAt ops 0 = b.val →
        ∃ (t : State) (bank : Bank) (qualified : Fin 16 → Probe), exec (.probeSet f) s = .next t
          ∧ (∀ i, qualified i = match (s.pfe.probes[i]).candidate with
            | some c =>
              if i ∈ s.pfe.due then { s.pfe.probes[i] with
                level := c.level, edgesNow := min 65535 ((s.pfe.probes[i]).edgesNow + 1), candidate := none }
              else s.pfe.probes[i]
            | none => s.pfe.probes[i])
          ∧ bank = ⟨max 10 (min 250 ((natAt ops 1 2 + 10) / 20)), min 15 (byteAt ops 3)⟩
          ∧ t.pfe = { s.pfe with
              due := []
              banks := s.pfe.banks.set b bank
              probes := Vector.ofFn fun i =>
                if bankOf i = b then
                  (qualified i).filtered bank.width (decide (20 * bank.code ≤ s.pfe.pins[i]))
                else qualified i }
          ∧ (∀ i : Fin 4, t.lanes[i] = (laneChange i s.pfe.levels t.pfe.levels s.lanes[i]).lane)
          ∧ t.ctl = { s.ctl with
              phase := .answer, cell := some takingCell
              txn := answeredTxn 0x10 f
                ⟨.ok, byteOf b.val :: byteOf bank.code :: (beBytes 2 (20 * bank.code) ++ [byteOf bank.width])⟩ }
          ∧ t.pim = s.pim ∧ t.rte.table = s.rte.table ∧ t.rte.hold = s.rte.hold ∧ t.wta.slots = s.wta.slots
          ∧ t.wta.traps = s.wta.traps ∧ t.dse.rows = s.dse.rows ∧ t.pwu.wakePending = s.pwu.wakePending

/-- LANE-SET and LANE-ENABLE act on their lane at the taking and wait for the request they raise: the checks in their order,
then the configuration or the enable written and the lane restarted, with a retirement where kind, W or A differs and a
marking otherwise. A restart discards the decode context, the pointer table and the posting without a flag, keeps the flags and
the LANE-STATUS notes, leaves the lane SEEKING (a four-wire lane with no select active IDLE at once) or OFF, and merges its
request with a waiting one (R19, R20, R21, R31, R33, R60). Which 24 configuration bytes the checks accept, and the configuration
they give, clamps applied, are spelled from R18, R19 and R197; that a FOUR-WIRE select beyond the count holds its entry of 0 to 15
as given is the model's reading, and what it holds for an entry above 15 is left open (log 14). -/
def Obligations.LaneCommandsRestartTheLane : Prop :=
  ∀ (s : State) (ops : List Byte) (f : Frame), f = Frame.ofOperands ops →
    (Hears .laneSet ops s →
        (loadAllInFlight s = true → exec (.laneSet f) s = .next (settle (answeredAtOnce 0x18 f ⟨.busy, []⟩ s)))
        ∧ (loadAllInFlight s = false →
            (3 < byteAt ops 0 ∨ 3 < byteAt ops 1
              ∨ (byteAt ops 1 ≠ 3 ∧ (byteAt ops 2 ∉ [1, 2, 4] ∨ byteAt ops 3 ∉ [1, 2]))
              ∨ 1 < byteAt ops 4 ∨ 3 < byteAt ops 7 ∨ 1 < byteAt ops 8 ∨ 1 < byteAt ops 10 ∨ 2 < byteAt ops 11
              ∨ (byteAt ops 1 = 1 ∧ (15 < byteAt ops 14 ∨ 15 < byteAt ops 15 ∨ byteAt ops 14 = byteAt ops 15))
              ∨ (byteAt ops 1 = 3 ∧ (15 < byteAt ops 23 ∨ 15 < byteAt ops 24 ∨ byteAt ops 23 = byteAt ops 24))
              ∨ parseLaneConfig (bytesAt ops 1 24) = none) →
            exec (.laneSet f) s = .next (settle (answeredAtOnce 0x18 f ⟨.badOperand, []⟩ s)))
        ∧ ∀ (i : Fin 4) (c : LaneConfig), loadAllInFlight s = false → byteAt ops 0 = i.val →
            parseLaneConfig (bytesAt ops 1 24) = some c →
            exec (.laneSet f) s = .next (settle { leftWaiting .laneSet f s with
              lanes := s.lanes.set i (Lane.restart
                (if (s.lanes[i]).cfg.kind ≠ c.kind ∨ (s.lanes[i]).cfg.w ≠ c.w ∨ (s.lanes[i]).cfg.a ≠ c.a then
                  .retirement else .marking)
                s.pfe.levels { s.lanes[i] with cfg := c }) }))
      ∧ (Hears .laneEnable ops s →
        (loadAllInFlight s = true → exec (.laneEnable f) s = .next (settle (answeredAtOnce 0x19 f ⟨.busy, []⟩ s)))
        ∧ (loadAllInFlight s = false → (3 < byteAt ops 0 ∨ 1 < byteAt ops 1) →
            exec (.laneEnable f) s = .next (settle (answeredAtOnce 0x19 f ⟨.badOperand, []⟩ s)))
        ∧ ∀ i : Fin 4, loadAllInFlight s = false → byteAt ops 0 = i.val → byteAt ops 1 ≤ 1 →
            exec (.laneEnable f) s = .next (settle { leftWaiting .laneEnable f s with
              lanes := s.lanes.set i
                (Lane.restart .marking s.pfe.levels { s.lanes[i] with enabled := byteAt ops 1 = 1 }) }))
      ∧ (∀ e : List Byte, e.length = 24 →
        (parseLaneConfig e = none ↔ ConfigRefused e) ∧ ∀ c, parseLaneConfig e = some c → ConfigGiven e c)
      ∧ ∀ (l : Lane) (r : LaneRequest) (lv : Levels),
        l.restart r lv = { l with
          two := ⟨[], none, .address, none⟩, four := ⟨false, [], [], 0, .command []⟩, mgmt := ⟨0, false, .operation []⟩
          pointers := [], slot := none
          state :=
            if l.enabled = false ∨ l.cfg.kind = .none then .off
            else if l.cfg.kind = .fourWire ∧ ∀ n : Fin 4, n.val < l.cfg.selectCount → lv (l.cfg.pins.sel[n]) = true then
              .idle
            else .seeking
          request := some (if l.request = some .retirement ∨ r = .retirement then .retirement else .marking) }

/-- WATCH-FREE makes its slot FREE, unbinds the record of an ARMED or PENDING one, and answers the state the slot was in.
TAKE-WATCH answers the key, the value and the marks of a PENDING or DETACHED slot and sets its taken-marker, with nothing
newer; an ARMED slot answers NOTHING, a FREE one DENIED, each with no effect. A number above 7 is refused (R120, R122). -/
def Obligations.SlotCommands : Prop :=
  ∀ (s : State) (ops : List Byte) (f : Frame), f = Frame.ofOperands ops →
    (Hears .watchFree ops s →
      (7 < byteAt ops 0 → exec (.watchFree f) s = .next (settle (answeredAtOnce 0x31 f ⟨.badOperand, []⟩ s)))
      ∧ ∀ i : Fin 8, byteAt ops 0 = i.val →
        exec (.watchFree f) s = .next (settle
          { answeredAtOnce 0x31 f ⟨.ok, [(s.wta.slots[i]).code]⟩ s with
            wta := { s.wta with slots := s.wta.slots.set i .free }
            rte := { s.rte with table := match (s.wta.slots[i]).boundKey with
              | some k => s.rte.table.map fun r => if r.key = k then { r with watch := none } else r
              | none => s.rte.table } }))
    ∧ (Hears .takeWatch ops s →
      (7 < byteAt ops 0 → exec (.takeWatch f) s = .next (settle (answeredAtOnce 0x32 f ⟨.badOperand, []⟩ s)))
      ∧ ∀ i : Fin 8, byteAt ops 0 = i.val →
        exec (.takeWatch f) s = .next (settle (match s.wta.slots[i] with
          | .free => answeredAtOnce 0x32 f ⟨.denied, []⟩ s
          | .armed _ => answeredAtOnce 0x32 f ⟨.nothing, []⟩ s
          | .pending k v missed _ =>
            { answeredAtOnce 0x32 f ⟨.ok, k.bytes ++ wordBytes v ++ [if missed then 3 else 1]⟩ s with
              wta := { s.wta with slots := s.wta.slots.set i (.pending k v missed (some ⟨false, none⟩)) } }
          | .detached k (some v) missed _ =>
            { answeredAtOnce 0x32 f ⟨.ok, k.bytes ++ wordBytes v ++ [if missed then 7 else 5]⟩ s with
              wta := { s.wta with slots := s.wta.slots.set i (.detached k (some v) missed (some ⟨true, none⟩)) } }
          | .detached k none missed _ =>
            { answeredAtOnce 0x32 f ⟨.ok, k.bytes ++ [0, 0, 0, 0] ++ [if missed then 6 else 4]⟩ s with
              wta := { s.wta with slots := s.wta.slots.set i (.detached k none missed (some ⟨true, none⟩)) } })))

/-- TRAP-READ answers its window as it stands, in the 16 bytes of R198, and, with the clear option, places a clear note on it; a
window above 3 or another option is refused (R131). -/
def Obligations.TrapReadNotes : Prop :=
  ∀ (s : State) (ops : List Byte) (f : Frame), f = Frame.ofOperands ops → Hears .trapRead ops s →
    ((3 < byteAt ops 0 ∨ 1 < byteAt ops 1) →
        exec (.trapRead f) s = .next (settle (answeredAtOnce 0x34 f ⟨.badOperand, []⟩ s)))
      ∧ ∀ i : Fin 4, byteAt ops 0 = i.val →
        (byteAt ops 1 = 0 →
          exec (.trapRead f) s = .next (settle (answeredAtOnce 0x34 f ⟨.ok, (s.wta.traps[i]).bytes⟩ s)))
        ∧ (byteAt ops 1 = 1 → exec (.trapRead f) s = .next (settle
            { answeredAtOnce 0x34 f ⟨.ok, (s.wta.traps[i]).bytes⟩ s with
              wta := { s.wta with
                traps := s.wta.traps.set i { s.wta.traps[i] with clearNote := some ⟨0, none⟩ } } }))
        ∧ (s.wta.traps[i]).bytes = windowBytes s.wta.traps[i]

/-- VIEW-SET writes one row, and its rebound mark while hold is in force; VIEW-OPTIONS writes the highlight window and
PANEL-SET the two backlight levels, each clamped to 15; each answers what is held (R139, R146, R153, R156). Which bindings and
formats are accepted, and what the answer shows of them, is spelled from R139, R196 and R198. The argument reported for EMPTY
and AUTO is the model's choice (log 15), and so is that the answers stand ready at the taking, with no WAIT byte (log 11). -/
def Obligations.ViewCommandsWriteTheSettings : Prop :=
  (∀ (code : Nat) (argument : List Byte),
    (∀ b : Binding, bindingOf code argument = some b ↔ match b with
      | .empty => code = 0
      | .record k => code = 1 ∧ k = keyOf argument
      | .probe p => code = 2 ∧ byteAt argument 3 = p.val
      | .watch n => code = 3 ∧ byteAt argument 3 = n.val
      | .auto => code = 4)
    ∧ (∀ g : Format, Format.ofCode code = some g ↔ code = match g with
      | .hex => 0
      | .decimal => 1
      | .binary => 2)
    ∧ (∀ g : Format, Format.ofCode g.code = some g)
    ∧ ∀ b : Binding, (b.code, b.argument) = match b with
      | .empty => (0, [0, 0, 0, 0])
      | .record k => (1, keyBytes k)
      | .probe p => (2, [0, 0, 0, BitVec.ofNat 8 p.val])
      | .watch n => (3, [0, 0, 0, BitVec.ofNat 8 n.val])
      | .auto => (4, [0, 0, 0, 0]))
  ∧ ∀ (s : State) (ops : List Byte) (f : Frame), f = Frame.ofOperands ops →
    (Hears .viewSet ops s →
        ((byteAt ops 0 = 0 ∨ 16 < byteAt ops 0 ∨ bindingOf (byteAt ops 1) (bytesAt ops 3 4) = none ∨ 2 < byteAt ops 2) →
          exec (.viewSet f) s = .next (settle (answeredAtOnce 0x38 f ⟨.badOperand, []⟩ s)))
        ∧ ∀ (i : Fin 16) (b : Binding) (g : Format), byteAt ops 0 = i.val + 1 →
            bindingOf (byteAt ops 1) (bytesAt ops 3 4) = some b → Format.ofCode (byteAt ops 2) = some g →
            exec (.viewSet f) s = .next (settle
              { answeredAtOnce 0x38 f ⟨.ok, [byteOf (i.val + 1), byteOf b.code, byteOf g.code] ++ b.argument⟩ s with
                dse := { s.dse with rows := s.dse.rows.set i ⟨b, g, (s.dse.rows[i]).rebound || s.rte.hold⟩ } }))
      ∧ (Hears .viewOptions ops s → exec (.viewOptions f) s = .next (settle
          { answeredAtOnce 0x39 f ⟨.ok, [byteOf (min 15 (byteAt ops 0))]⟩ s with
            dse := { s.dse with window := min 15 (byteAt ops 0) } }))
      ∧ (Hears .panelSet ops s → exec (.panelSet f) s = .next (settle
          { answeredAtOnce 0x3A f ⟨.ok, [byteOf (min 15 (byteAt ops 0)), byteOf (min 15 (byteAt ops 1))]⟩ s with
            dse := { s.dse with runLevel := min 15 (byteAt ops 0), dimLevel := min 15 (byteAt ops 1) } }))

/-- POWER-SET writes every setting, timers clamped to 255, and while link activity is yes after the write its taking restarts
the dim timer with the new setting; a timer already running otherwise keeps its period. POWER-STATUS answers the settings
and, with the clear option, notes the wake pending set. Operands outside their values are refused (R168, R169). The bytes of the
settings and of the wake pending set are spelled from R198. That the answers stand ready at the taking, with no WAIT byte, is the
model's choice (log 11). -/
def Obligations.PowerCommands : Prop :=
  (∀ p : Pwu, p.settingBytes = powerBytes p)
  ∧ (∀ w : WakeSet, w.bytes = BitVec.ofNat 8 (oneIf w.holdkey + 2 * oneIf w.lsel) :: twoBytes w.probes.toNat)
  ∧ ∀ (s : State) (ops : List Byte) (f : Frame), f = Frame.ofOperands ops →
    (Hears .powerSet ops s →
        (((∃ n : Fin 16, 3 < byteAt ops (6 + n.val)) ∨ 1 < byteAt ops 22 ∨ 1 < byteAt ops 23 ∨ 1 < byteAt ops 24) →
            exec (.powerSet f) s = .next (settle (answeredAtOnce 0x40 f ⟨.badOperand, []⟩ s)))
        ∧ ∀ (edges : Vector WakeEdge 16) (p : Pwu),
            (∀ n : Fin 16, byteAt ops (6 + n.val) = match edges[n] with
              | .none => 0
              | .rising => 1
              | .falling => 2
              | .either => 3) →
            byteAt ops 22 ≤ 1 → byteAt ops 23 ≤ 1 → byteAt ops 24 ≤ 1 →
            p = { s.pwu with
              dim := min 255 (natAt ops 0 2), dark := min 255 (natAt ops 2 2), sleep := min 255 (natAt ops 4 2)
              wakeEdges := edges, holdkeyWake := byteAt ops 22 = 1, keyActivity := byteAt ops 23 = 1
              linkActivity := byteAt ops 24 = 1
              timer := if byteAt ops 24 = 1 then
                  (if natAt ops 0 2 = 0 then none else some (.dim, min 255 (natAt ops 0 2)))
                else s.pwu.timer
              deferred := if byteAt ops 24 = 1 then false else s.pwu.deferred } →
            exec (.powerSet f) s = .next (settle
              { answeredAtOnce 0x40 f ⟨.ok, p.settingBytes⟩ s with pwu := p }))
      ∧ (Hears .powerStatus ops s →
        (1 < byteAt ops 0 → exec (.powerStatus f) s = .next (settle (answeredAtOnce 0x41 f ⟨.badOperand, []⟩ s)))
        ∧ (byteAt ops 0 = 0 → exec (.powerStatus f) s = .next (settle
            (answeredAtOnce 0x41 f ⟨.ok, [0] ++ s.pwu.wakePending.bytes ++ s.pwu.settingBytes⟩ s)))
        ∧ (byteAt ops 0 = 1 → exec (.powerStatus f) s = .next (settle
            { answeredAtOnce 0x41 f ⟨.ok, [0] ++ s.pwu.wakePending.bytes ++ s.pwu.settingBytes⟩ s with
              pwu := { heard s with clearNote := some s.pwu.wakePending } })))

/-- PROFILE-LOAD begins a load of its scope and PROFILE-STORE a store whose image is the snapshot; while a profile operation is
in flight both are refused with BUSY, and a scope above 1 with BAD-OPERAND (R192, R193). The image is spelled byte by byte from
R193, R200 and R201: the header, whose adjust byte brings the sum to 0, the settings block, and the seeds of the first 256
records in key order that are pinned, have a label or have an expectation; the filler of an absent label is log 20. That the
operand is judged before BUSY is the model's order (log 31); that the answers stand ready at the taking, with no WAIT byte, is
the model's choice (log 11). -/
def Obligations.ProfileCommandsBegin : Prop :=
  (∀ s : State, (∀ i : Fin 4, (s.lanes[i]).cfg.Law) → s.settingsBlock = settingsBytes s)
  ∧ (∀ r : Record, (∀ l, r.label = some l → l.length ≤ 12) → r.seedBytes = storedSeed r)
  ∧ ∀ (s : State) (ops : List Byte) (f : Frame), f = Frame.ofOperands ops →
    (Hears .profileLoad ops s →
        (1 < byteAt ops 0 → exec (.profileLoad f) s = .next (settle (answeredAtOnce 0x48 f ⟨.badOperand, []⟩ s)))
        ∧ (byteAt ops 0 ≤ 1 → s.pim.op ≠ .none →
            exec (.profileLoad f) s = .next (settle (answeredAtOnce 0x48 f ⟨.busy, []⟩ s)))
        ∧ (byteAt ops 0 ≤ 1 → s.pim.op = .none → exec (.profileLoad f) s = .next (settle
            { answeredAtOnce 0x48 f ⟨.ok, [byteOf (byteAt ops 0)]⟩ s with
              pim := { s.pim with
                op := .load ⟨if byteAt ops 0 = 0 then .seeds else .all, .reading, none, 0, 0, 0, []⟩ } })))
      ∧ (Hears .profileStore ops s →
        (s.pim.op ≠ .none → exec (.profileStore f) s = .next (settle (answeredAtOnce 0x49 f ⟨.busy, []⟩ s)))
        ∧ (∀ seeded : List Record, s.pim.op = .none →
          seeded = s.rte.table.filter (fun r => r.pinned || r.label.isSome || r.expectation.isSome) → ∃ im : StoreImage,
            exec (.profileStore f) s = .next (settle
              { answeredAtOnce 0x49 f ⟨.ok, beBytes 2 im.seeds ++ [boolByte im.truncated]⟩ s with
                pim := { s.pim with image := im, op := .store .invalidate } })
            ∧ im.seeds = min 256 seeded.length ∧ im.truncated = decide (256 < seeded.length)
            ∧ im.bytes.take 9 = [0x4E, 0x57, 0xB1, 0xA8, 0x01] ++ beBytes 2 im.seeds ++ [0x00, 0x80]
            ∧ (im.bytes.drop 10).take 6 = [0, 0, 0, 0, 0, 0] ∧ (im.bytes.map BitVec.toNat).sum % 256 = 0
            ∧ im.bytes.drop 16 = s.settingsBlock ++ ((seeded.take 256).map Record.seedBytes).flatten))

/-! ## Commands served in their turn -/

/-- LOOKUP and TABLE-INFO are served at LINK and change no state but the link's: LOOKUP answers the record of its key or
NO-RECORD; TABLE-INFO answers the record count, the epoch, the hold state, the walk cursor and the first-refused capture
(R89, R104, R114). The key that four operand bytes name, the bytes of a key and the 48 bytes of a record, decayed heat and ages
among them, are spelled from R104, R196 and R198; the filler of an absent label is log 20. -/
def Obligations.TableReadsAreServed : Prop :=
  (∀ (a b c d : Byte) (k : Key),
    keyOf [a, b, c, d] = k ↔ k.lane.val = a.toNat / 64 ∧ k.target.toNat = a.toNat % 4 * 256 + b.toNat
      ∧ k.register.toNat = c.toNat * 256 + d.toNat)
  ∧ (∀ k : Key, k.bytes = keyBytes k)
  ∧ (∀ (r : Record) (epoch : Nat), (∀ l, r.label = some l → l.length ≤ 12) → r.bytes epoch = recordBytes epoch r)
  ∧ ∀ (s : State) (ops : List Byte) (f : Frame), f = Frame.ofOperands ops →
    (WaitsAtLink .lookup ops s →
        (Machine.lookup (keyOf ops) s.rte.table = none →
          exec (.lookup .served f) s = .next (settle (servedAtLink .lookup ops ⟨.noRecord, []⟩ s)))
        ∧ ∀ r, Machine.lookup (keyOf ops) s.rte.table = some r →
          exec (.lookup .served f) s = .next (settle (servedAtLink .lookup ops ⟨.ok, r.bytes s.rte.epoch⟩ s)))
      ∧ (WaitsAtLink .tableInfo ops s →
        exec (.tableInfo .served f) s = .next (settle (servedAtLink .tableInfo ops
          ⟨.ok, beBytes 2 s.rte.table.length ++ beBytes 4 s.rte.epoch ++ [boolByte s.rte.hold] ++ s.rte.cursor.bytes
            ++ (match s.rte.capture with
              | some (k, e) => [1] ++ k.bytes ++ beBytes 4 e
              | none => List.replicate 9 0)⟩ s)))

/-- WALK is served at LINK: a count of 0 is refused; otherwise it answers the records at or above the cursor in key order, at
most the count and at most sixteen, with the end mark set when none lies above the last one returned, and notes where
complete delivery moves the cursor: to the key after the last record, or to 0/0/0 at the end. WALK-FROM sets the cursor
(R105, R106, R107). -/
def Obligations.WalkIsServed : Prop :=
  ∀ (s : State) (ops : List Byte) (f : Frame), f = Frame.ofOperands ops → TableLaw s →
    (WaitsAtLink .walk ops s →
        (byteAt ops 0 = 0 → exec (.walk .served f) s = .next (settle (servedAtLink .walk ops ⟨.badOperand, []⟩ s)))
        ∧ ∀ (above rs : List Record) (atEnd : Bool), byteAt ops 0 ≠ 0 →
            above = s.rte.table.filter (fun r => s.rte.cursor.num ≤ r.key.num) →
            rs = above.take (min 16 (byteAt ops 0)) → atEnd = decide (above.length ≤ min 16 (byteAt ops 0)) →
            ∃ next : Key, exec (.walk .served f) s = .next (settle
                { servedAtLink .walk ops
                    ⟨.ok, [byteOf rs.length, boolByte atEnd] ++ (rs.map (Record.bytes s.rte.epoch)).flatten⟩ s with
                  rte := { s.rte with last := .link, serving := none, walkNote := some next } })
              ∧ (atEnd = true → next.num = 0)
              ∧ (atEnd = false → ∀ r, rs.getLast? = some r → next.num = r.key.num + 1))
      ∧ (WaitsAtLink .walkFrom ops s → exec (.walkFrom .served f) s = .next (settle
          { servedAtLink .walkFrom ops ⟨.ok, []⟩ s with
            rte := { s.rte with last := .link, serving := none, cursor := keyOf ops } }))

/-- SEED is served at LINK, outside a profile load: a key that does not fit its lane's present configuration is refused, a
record that is there answers EXISTED; a key without one is admitted to a table with room at its lane's W, with everything
absent, clear or 0 and its stamps at the present epoch, and answers CREATED; a full table that protects every record answers
FULL, raises ADMIT and fills an empty capture; a full table with an unprotected record evicts the one with the lowest decayed
heat, then the oldest access, then the lowest key, and answers CREATED (R92, R93, R94, R108, R109). Which keys fit is spelled
from R26 and R108. -/
def Obligations.SeedIsServed : Prop :=
  (∀ (c : LaneConfig) (k : Key), keyFits c k = true ↔ match c.kind with
    | .none => False
    | .twoWire => k.target.toNat ≤ (if c.tenBit then 1023 else 127) ∧ k.register.toNat ≤ 2 ^ (8 * c.a) - 1
    | .fourWire => k.target.toNat < c.selectCount
      ∧ k.register.toNat ≤ 2 ^ (if c.autoinc = .flag then 8 * c.a - 2 else 8 * c.a - 1) - 1
    | .management => k.target.toNat ≤ 31 ∧ k.register.toNat ≤ 31)
  ∧ ∀ (s : State) (ops : List Byte) (f : Frame) (k : Key), f = Frame.ofOperands ops → k = keyOf ops →
    WaitsAtLink .seed ops s → profileLoadInFlight s = false →
    (keyFits (s.lanes[k.lane]).cfg k = false →
        exec (.seed .served f) s = .next (settle (servedAtLink .seed ops ⟨.badOperand, []⟩ s)))
      ∧ (keyFits (s.lanes[k.lane]).cfg k = true →
        ((∃ r ∈ s.rte.table, r.key = k) →
          exec (.seed .served f) s = .next (settle (servedAtLink .seed ops ⟨.ok, [0]⟩ s)))
        ∧ ((∀ r ∈ s.rte.table, r.key ≠ k) → s.rte.table.length < 1024 →
          exec (.seed .served f) s = .next (settle
            { servedAtLink .seed ops ⟨.ok, [1]⟩ s with
              rte := { s.rte with
                last := .link, serving := none
                table := insertRecord
                  { key := k, width := (s.lanes[k.lane]).cfg.w, seen := none, written := none, held := none
                    expectation := none, label := none, pinned := false, notify := false, diverged := false
                    mismatched := false, unverified := false, heat := 0, stamp := s.rte.epoch
                    lastAccess := s.rte.epoch, lastChange := none, changes := 0, watch := none } s.rte.table } }))
        ∧ ((∀ r ∈ s.rte.table, r.key ≠ k) → s.rte.table.length = 1024 → TableLaw s →
          (∃ r ∈ s.rte.table, r.pinned = false ∧ r.watch = none) →
          ∃ c ∈ s.rte.table, c.pinned = false ∧ c.watch = none
            ∧ (∀ r ∈ s.rte.table, r.pinned = false → r.watch = none → r ≠ c →
              decayedHeat c s.rte.epoch < decayedHeat r s.rte.epoch
                ∨ (decayedHeat c s.rte.epoch = decayedHeat r s.rte.epoch
                  ∧ (c.lastAccess < r.lastAccess ∨ (c.lastAccess = r.lastAccess ∧ c.key.num < r.key.num))))
            ∧ exec (.seed .served f) s = .next (settle
              { servedAtLink .seed ops ⟨.ok, [1]⟩ s with
                rte := { s.rte with
                  last := .link, serving := none
                  table := insertRecord (newRecord k (s.lanes[k.lane]).cfg.w s.rte.epoch)
                    (s.rte.table.filter fun x => x.key ≠ c.key) } }))
        ∧ ((∀ r ∈ s.rte.table, r.key ≠ k) → 1024 ≤ s.rte.table.length →
          (∀ r ∈ s.rte.table, r.pinned = true ∨ r.watch.isSome) →
          exec (.seed .served f) s = .next (settle
            { servedAtLink .seed ops ⟨.full, []⟩ s with
              rte := { s.rte with
                last := .link, serving := none
                capture := some (s.rte.capture.getD (k, s.rte.epoch)) }
              wta := { s.wta with causes := s.wta.causes ||| 0x010 } })))

/-- AMEND is served at LINK, outside a profile load: operands that do not pass are refused, a key without a record answers
NO-RECORD; otherwise the clears, then label, pinned and divergence-notify, then the expectation are applied, a set
expectation is cut to the record's width and tested against its value, and a MISMATCH raised where the test sets the flag.
The answer is the record as amended (R110, R111). Which operands pass, and the changes they ask for, are spelled from R110 and
R197. -/
def Obligations.AmendIsServed : Prop :=
  (∀ ops : List Byte, ops.length = 27 →
    (parseAmend ops = none ↔ AmendRefused ops) ∧ ∀ a, parseAmend ops = some a → AmendGiven ops a)
  ∧ ∀ (s : State) (ops : List Byte) (f : Frame) (k : Key), f = Frame.ofOperands ops → k = keyOf (bytesAt ops 0 4) →
    WaitsAtLink .amend ops s → profileLoadInFlight s = false →
    (parseAmend ops = none →
        exec (.amend .served f) s = .next (settle (servedAtLink .amend ops ⟨.badOperand, []⟩ s)))
      ∧ ∀ a, parseAmend ops = some a →
        (Machine.lookup k s.rte.table = none →
          exec (.amend .served f) s = .next (settle (servedAtLink .amend ops ⟨.noRecord, []⟩ s)))
        ∧ ∀ r r' : Record, Machine.lookup k s.rte.table = some r →
          r' = { r with
            diverged := r.diverged && !a.clearDiverged
            changes := if a.clearChanges then 0 else r.changes
            label := a.label.getD r.label
            pinned := a.pinned.getD r.pinned
            notify := a.notify.getD r.notify
            expectation := (match a.expectation with
              | none => r.expectation
              | some none => none
              | some (some x) => some ⟨x.expected &&& widthMask r.width, x.mask &&& widthMask r.width⟩)
            mismatched := (match a.expectation with
              | none => r.mismatched && !a.clearMismatched
              | some none => false
              | some (some x) => (r.mismatched && !a.clearMismatched) || r.value.elim false fun v =>
                ((v ^^^ (x.expected &&& widthMask r.width)) &&& (x.mask &&& widthMask r.width)) != 0) } →
          exec (.amend .served f) s = .next (settle
            { servedAtLink .amend ops ⟨.ok, r'.bytes s.rte.epoch⟩ s with
              rte := { s.rte with
                last := .link, serving := none
                table := s.rte.table.map fun x => if x.key = k then r' else x }
              wta := { s.wta with
                causes := s.wta.causes
                  ||| (if r'.mismatched = true ∧ (r.mismatched && !a.clearMismatched) = false then 0x002 else 0) } })

/-- RETIRE and CLEAR-TABLE are served at LINK, outside a profile load. RETIRE of a key without a record answers NO-RECORD;
otherwise the record leaves the table, pinned or watched or not, and the slot that watched it becomes FREE or DETACHED.
CLEAR-TABLE retires the unpinned records, or all, with the same consequences, and answers how many. The cursor, the epoch, the
hold state and the capture stay (R99, R112, R113, R126). -/
def Obligations.RetirementsAreServed : Prop :=
  ∀ (s : State) (ops : List Byte) (f : Frame), f = Frame.ofOperands ops → profileLoadInFlight s = false →
    (WaitsAtLink .retire ops s →
      (Machine.lookup (keyOf ops) s.rte.table = none →
        exec (.retire .served f) s = .next (settle (servedAtLink .retire ops ⟨.noRecord, []⟩ s)))
      ∧ ∀ r, Machine.lookup (keyOf ops) s.rte.table = some r →
        exec (.retire .served f) s = .next (settle
          { servedAtLink .retire ops ⟨.ok, []⟩ s with
            rte := { s.rte with
              last := .link, serving := none, table := s.rte.table.filter fun x => x.key ≠ keyOf ops }
            wta := { s.wta with slots := match r.watch with
              | none => s.wta.slots
              | some i => s.wta.slots.set i (match s.wta.slots[i] with
                | .armed _ => .free
                | .pending k v missed t => .detached k (some v) missed t
                | x => x) } }))
    ∧ (WaitsAtLink .clearTable ops s → TableLaw s →
      (1 < byteAt ops 0 →
        exec (.clearTable .served f) s = .next (settle (servedAtLink .clearTable ops ⟨.badOperand, []⟩ s)))
      ∧ ∀ kept : List Record, byteAt ops 0 ≤ 1 →
        kept = s.rte.table.filter (fun r => byteAt ops 0 = 0 && r.pinned) →
        ∃ slots : Vector Slot 8, exec (.clearTable .served f) s = .next (settle
            { servedAtLink .clearTable ops ⟨.ok, beBytes 2 (s.rte.table.length - kept.length)⟩ s with
              rte := { s.rte with last := .link, serving := none, table := kept }
              wta := { s.wta with slots := slots } })
          ∧ (BindingLaw s → SlotsAfterRetirement kept s slots))

/-- HOLD is served at LINK: it sets the hold state it is given; a change clears every rebound mark, and the end of hold drops
every held part. It raises no cause, and another operand is refused (R101, R102, R153). -/
def Obligations.HoldIsServed : Prop :=
  ∀ (s : State) (ops : List Byte) (f : Frame), f = Frame.ofOperands ops → WaitsAtLink .hold ops s →
    (1 < byteAt ops 0 → exec (.hold .served f) s = .next (settle (servedAtLink .hold ops ⟨.badOperand, []⟩ s)))
      ∧ ∀ on : Bool, byteAt ops 0 = (if on then 1 else 0) →
        (s.rte.hold = on →
          exec (.hold .served f) s = .next (settle (servedAtLink .hold ops ⟨.ok, [boolByte on]⟩ s)))
        ∧ (s.rte.hold ≠ on → exec (.hold .served f) s = .next (settle
            { servedAtLink .hold ops ⟨.ok, [boolByte on]⟩ s with
              rte := { s.rte with
                last := .link, serving := none, hold := on
                table := if on then s.rte.table else s.rte.table.map fun r => { r with held := none } }
              dse := { s.dse with rows := Vector.ofFn fun i => { s.dse.rows[i] with rebound := false } } }))

/-- WATCH-SET and TRAP-SET are served at LINK. WATCH-SET makes its checks in order, and an accepted one arms the slot on the
record, which names the slot. TRAP-SET with operands outside their values is refused; otherwise the window's six fields are
written, its count and first-hit key cleared and any clear note dropped, and the window as written is the answer (R119,
R130). -/
def Obligations.WatchAndTrapSetsAreServed : Prop :=
  ∀ (s : State) (ops : List Byte) (f : Frame) (k : Key), f = Frame.ofOperands ops → k = keyOf (bytesAt ops 1 4) →
    (WaitsAtLink .watchSet ops s →
    (7 < byteAt ops 0 →
        exec (.watchSet .served f) s = .next (settle (servedAtLink .watchSet ops ⟨.badOperand, []⟩ s)))
      ∧ ∀ i : Fin 8, byteAt ops 0 = i.val →
        (s.wta.slots[i] ≠ .free →
          exec (.watchSet .served f) s = .next (settle (servedAtLink .watchSet ops ⟨.denied, []⟩ s)))
        ∧ (s.wta.slots[i] = .free →
          (Machine.lookup k s.rte.table = none →
            exec (.watchSet .served f) s = .next (settle (servedAtLink .watchSet ops ⟨.noRecord, []⟩ s)))
          ∧ ∀ r, Machine.lookup k s.rte.table = some r →
            (r.watch ≠ none →
              exec (.watchSet .served f) s = .next (settle (servedAtLink .watchSet ops ⟨.already, []⟩ s)))
            ∧ (r.watch = none → exec (.watchSet .served f) s = .next (settle
                { servedAtLink .watchSet ops ⟨.ok, byteOf i.val :: k.bytes⟩ s with
                  rte := { s.rte with
                    last := .link, serving := none
                    table := s.rte.table.map fun x => if x.key = k then { x with watch := some i } else x }
                  wta := { s.wta with slots := s.wta.slots.set i (.armed k) } }))))
    ∧ (WaitsAtLink .trapSet ops s →
    ((3 < byteAt ops 0 ∨ 2 < byteAt ops 1 ∨ 3 < byteAt ops 2 ∨ 1023 < natAt ops 3 2 ∨ natAt ops 7 2 < natAt ops 5 2
        ∨ 2 < byteAt ops 9) →
      exec (.trapSet .served f) s = .next (settle (servedAtLink .trapSet ops ⟨.badOperand, []⟩ s)))
      ∧ ∀ (i lane : Fin 4) (m : TrapMode) (d : TrapDir), byteAt ops 0 = i.val → byteAt ops 2 = lane.val →
        natAt ops 3 2 ≤ 1023 → natAt ops 5 2 ≤ natAt ops 7 2 →
        byteAt ops 1 = (match m with
          | .off => 0
          | .notify => 1
          | .exclude => 2) →
        byteAt ops 9 = (match d with
          | .write => 0
          | .read => 1
          | .both => 2) →
        ∃ t : Trap, t = ⟨m, lane, BitVec.ofNat 10 (natAt ops 3 2), natAt ops 5 2, natAt ops 7 2, d, 0, none, none⟩
          ∧ exec (.trapSet .served f) s = .next (settle
            { servedAtLink .trapSet ops ⟨.ok, t.bytes⟩ s with
              rte := { s.rte with last := .link, serving := none }
              wta := { s.wta with traps := s.wta.traps.set i t } }))

/-- PROBE-READ, LANE-STATUS and SLEEP are served by their owners in their turn: PROBE-READ and LANE-STATUS answer the state as
it stands and, with the clear option, note the marks they report; SLEEP answers OK, or BUSY while a profile operation is in
flight, and leaves sleep entry for the rise of LSEL (R11, R12, R30, R170). The bytes of a probe and of a lane's status are
spelled from R198. Each of these, and each command served at LINK, has the same effect where LSEL has cut its transaction in
WAITING: its answer is dropped, with the notes made for it, and nothing is sent (R177, R178); an accepted SLEEP then begins sleep
entry at its service (the model's reading, log 12). -/
def Obligations.OwnersServeInTurn : Prop :=
  (∀ p : Probe, p.bytes = BitVec.ofNat 8 (oneIf p.level + 2 * oneIf p.glitch) :: (twoBytes p.edgesNow ++ twoBytes p.edgesLast))
  ∧ (∀ l : Lane, l.statusBytes =
    [(match l.state with
      | .off => 0
      | .seeking => 1
      | .idle => 2
      | .inFrame => 3), BitVec.ofNat 8 (oneIf l.enabled)]
      ++ configBytes l.cfg ++ twoBytes l.flags.toNat
      ++ [BitVec.ofNat 8 (oneIf l.slot.isSome), BitVec.ofNat 8 l.pointers.length])
  ∧ (∀ (s : State) (c : Cmd) (row : Instr) (ops : List Byte) (f : Frame) (pre post : List Waiting) (shut : State),
    f = Frame.ofOperands ops → ops.length = c.operandLength → s.inReset = false → s.pwu.power ≠ .sleep →
    s.ctl.waiting = pre ++ ⟨c, ops, false⟩ :: post → (∀ w ∈ pre, ownerOf w.cmd w.operands ≠ ownerOf c ops) →
    shut = { s with ctl := { s.ctl with waiting := pre ++ ⟨c, ops, true⟩ :: post } } →
    (s.rte.serving = some .link →
      (c, row) ∈ [(.lookup, .lookup .served f), (.walkFrom, .walkFrom .served f), (.seed, .seed .served f),
        (.amend, .amend .served f), (.retire, .retire .served f), (.clearTable, .clearTable .served f),
        (.tableInfo, .tableInfo .served f), (.hold, .hold .served f), (.watchSet, .watchSet .served f),
        (.trapSet, .trapSet .served f)] →
      ∃ t, exec row s = .next t ∧ exec row shut = .next { t with ctl := { s.ctl with waiting := pre ++ post } })
    ∧ (s.rte.serving = some .link → c = .walk → byteAt ops 0 ≠ 0 → ∃ t, exec (.walk .served f) s = .next t
      ∧ exec (.walk .served f) shut = .next { t with
        ctl := { s.ctl with waiting := pre ++ post }, rte := { t.rte with walkNote := none } })
    ∧ ((∀ w ∈ post, ownerOf w.cmd w.operands ≠ ownerOf c ops) →
      (c = .probeRead → byteAt ops 0 ≤ 1 → exec (.probeRead .served f) shut = .next (settle { s with
        ctl := { s.ctl with waiting := pre ++ post }
        pfe := { s.pfe with probes := Vector.ofFn fun i => { s.pfe.probes[i] with clearNote := false } } }))
      ∧ (∀ i : Fin 4, c = .laneStatus → byteAt ops 0 = i.val → byteAt ops 1 ≤ 1 →
        exec (.laneStatus .served f) shut = .next (settle { s with
          ctl := { s.ctl with waiting := pre ++ post }, lanes := s.lanes.set i { s.lanes[i] with notes := 0 } }))
      ∧ (c = .sleep → s.pim.op ≠ .none → exec (.sleep .served f) shut = .next (settle { s with
        ctl := { s.ctl with waiting := pre ++ post } }))
      ∧ (c = .sleep → s.pim.op = .none → s.pwu.op = .none →
        ∃ t, exec (.sleep .served f) shut = .next t ∧ t.ctl = { s.ctl with waiting := pre ++ post }
          ∧ t.pwu = { s.pwu with power := .dark, op := .sleepEntry, timer := none, deferred := false }
          ∧ t.dse.panelOn = false ∧ (∀ i : Fin 4, t.lanes[i] = stoppedLane s.pfe.levels s.lanes[i])
          ∧ t.pfe = s.pfe ∧ t.wta = s.wta ∧ t.pim = s.pim ∧ t.rte.table = s.rte.table)))
  ∧ ∀ (s : State) (ops : List Byte) (f : Frame), f = Frame.ofOperands ops →
    (Waits .probeRead ops s → (∀ w ∈ s.ctl.waiting.erase ⟨.probeRead, ops, false⟩, ownerOf w.cmd w.operands ≠ .pfe) →
        (1 < byteAt ops 0 → exec (.probeRead .served f) s = .next (settle
          { s with ctl := servedCtl .probeRead ops ⟨.badOperand, []⟩ s }))
        ∧ (byteAt ops 0 ≤ 1 → exec (.probeRead .served f) s = .next (settle
          { s with
            ctl := servedCtl .probeRead ops ⟨.ok, beBytes 4 s.rte.epoch
              ++ (s.pfe.banks.toList.map fun b => byteOf b.code :: (beBytes 2 (20 * b.code) ++ [byteOf b.width])).flatten
              ++ (s.pfe.probes.toList.map Probe.bytes).flatten⟩ s
            pfe := { s.pfe with
              probes := if byteAt ops 0 = 0 then s.pfe.probes else
                Vector.ofFn fun i => { s.pfe.probes[i] with clearNote := (s.pfe.probes[i]).glitch } } })))
      ∧ (∀ i : Fin 4, Waits .laneStatus ops s → byteAt ops 0 = i.val →
        (1 < byteAt ops 1 → exec (.laneStatus .served f) s = .next (settle
          { s with ctl := servedCtl .laneStatus ops ⟨.badOperand, []⟩ s }))
        ∧ (byteAt ops 1 ≤ 1 → exec (.laneStatus .served f) s = .next (settle
          { s with
            ctl := servedCtl .laneStatus ops ⟨.ok, (s.lanes[i]).statusBytes⟩ s
            lanes := if byteAt ops 1 = 0 then s.lanes else
              s.lanes.set i { s.lanes[i] with notes := (s.lanes[i]).flags } })))
      ∧ (Waits .sleep ops s → (∀ w ∈ s.ctl.waiting.erase ⟨.sleep, ops, false⟩, ownerOf w.cmd w.operands ≠ .pwu) →
        (s.pim.op ≠ .none → exec (.sleep .served f) s = .next (settle
          { s with ctl := servedCtl .sleep ops ⟨.busy, []⟩ s }))
        ∧ (s.pim.op = .none → exec (.sleep .served f) s = .next (settle
          { s with ctl := servedCtl .sleep ops ⟨.ok, []⟩ s })
          ∧ (servedCtl .sleep ops ⟨.ok, []⟩ s).txn.sleeps = true))

/-- While a PROFILE-LOAD of either scope is in flight, SEED, AMEND, RETIRE and CLEAR-TABLE are answered BUSY before every other
check, with no effect (R103). -/
def Obligations.TableChangesAreBusyDuringALoad : Prop :=
  ∀ (s : State) (ops : List Byte) (f : Frame) (l : Load), f = Frame.ofOperands ops → s.pim.op = .load l →
    l.scope ≠ .startUp →
    (WaitsAtLink .seed ops s →
        exec (.seed .served f) s = .next (settle (servedAtLink .seed ops ⟨.busy, []⟩ s)))
      ∧ (WaitsAtLink .amend ops s →
        exec (.amend .served f) s = .next (settle (servedAtLink .amend ops ⟨.busy, []⟩ s)))
      ∧ (WaitsAtLink .retire ops s →
        exec (.retire .served f) s = .next (settle (servedAtLink .retire ops ⟨.busy, []⟩ s)))
      ∧ (WaitsAtLink .clearTable ops s →
        exec (.clearTable .served f) s = .next (settle (servedAtLink .clearTable ops ⟨.busy, []⟩ s)))

/-! ## Absorption -/

/-- The decayed heat of a record: with k the epochs since its stamp, h becomes floor(7h/8) once for each of the smaller of k
and 84 of them. The cap changes no result of a stored heat of at most 65535, and decayed heat never exceeds stored heat
(R87, R88). -/
def Obligations.DecayedHeatIsSevenEighths : Prop :=
  ∀ (r : Record) (e : Nat),
    decayedHeat r e = (fun h => 7 * h / 8)^[min (e - r.stamp) 84] r.heat
      ∧ (r.heat ≤ 65535 → decayedHeat r e = (fun h => 7 * h / 8)^[e - r.stamp] r.heat)
      ∧ decayedHeat r e ≤ r.heat

/-- A posting that no window excludes is absorbed for the record of its key: written, value, origin and divergence by its
direction; unverified cleared, the heat decayed and raised, the access epoch, the test of the expectation; and at a change of
value the change count, the change epoch, the held part under hold and the report to the watch slot. DIVERGE and MISMATCH are
raised at the transitions, and a NOTIFY match raises TRAP (R91, R95 to R98, R121, R129). -/
def Obligations.AbsorptionUpdatesTheRecord : Prop :=
  ∀ (s : State) (i : Fin 4) (p : Posting) (r r' : Record) (change newDiverge newMismatch : Bool), AbsorbsNext i p s →
    (∀ j : Fin 4, (s.wta.traps[j]).hit p = true → (s.wta.traps[j]).mode ≠ .exclude) →
    Machine.lookup p.key s.rte.table = some r →
    change = decide (r.value ≠ some p.value) →
    newDiverge = (decide (p.dir = .read) && r.written.isSome && decide (r.written ≠ some p.value) && !r.diverged) →
    newMismatch = (!r.mismatched && r.expectation.elim false fun x => ((p.value ^^^ x.expected) &&& x.mask) != 0) →
    r' = { r with
      written := if p.dir = .write then some p.value else r.written
      seen := if change then some ⟨p.value, p.dir⟩ else r.seen
      diverged := r.diverged || newDiverge
      unverified := false
      heat := min 65535 (decayedHeat r s.rte.epoch + (match p.dir with
        | .write => 4096
        | .read => 2048))
      stamp := s.rte.epoch
      lastAccess := s.rte.epoch
      mismatched := r.mismatched || newMismatch
      changes := if change then min 65535 (r.changes + 1) else r.changes
      lastChange := if change then some s.rte.epoch else r.lastChange
      held := if change && s.rte.hold && r.held.isNone then some (match r.value with
          | some v => .value v
          | none => .none)
        else r.held } →
    exec (.absorption i) s = .next (settle
      { absorbedFrom i s with
        rte := { s.rte with
          last := .lane i, serving := none
          table := s.rte.table.map fun x => if x.key = p.key then r' else x }
        wta := { s.wta with
          traps := countedTraps p s
          causes := s.wta.causes ||| trapCause p s ||| (if newDiverge && r.notify then 0x004 else 0)
            ||| (if newMismatch then 0x002 else 0)
          slots := match r.watch with
            | some j => if change then s.wta.slots.set j ((s.wta.slots[j]).report p.value) else s.wta.slots
            | none => s.wta.slots } })

/-- A watch slot under its five events. A report of a change latches the value, marks a second one missed, and is kept beside
a value that an answer in flight has taken. A report of retirement frees an ARMED slot and detaches a PENDING one. Complete
delivery arms a PENDING slot, or leaves it the newer value, and frees a slot reported as DETACHED; one detached after
composition keeps the newer value, or none. A lost answer leaves the value untaken, or the newer one marked missed (R121,
R123, R124, R125, R126). -/
def Obligations.SlotTransitions : Prop :=
  ∀ (k : Key) (v w u : Word) (m m' d : Bool),
    (Slot.armed k).report w = .pending k w false none
      ∧ (Slot.pending k v m none).report w = .pending k w true none
      ∧ (Slot.pending k v m (some ⟨d, none⟩)).report w = .pending k v m (some ⟨d, some (w, false)⟩)
      ∧ ((Slot.pending k v m (some ⟨d, none⟩)).report w).report u = .pending k v m (some ⟨d, some (u, true)⟩)
      ∧ (Slot.armed k).retired = .free
      ∧ (∀ t, (Slot.pending k v m t).retired = .detached k (some v) m t)
      ∧ (Slot.pending k v m (some ⟨false, none⟩)).delivered = .armed k
      ∧ (Slot.pending k v m (some ⟨false, some (w, m')⟩)).delivered = .pending k w m' none
      ∧ (Slot.detached k (some v) m (some ⟨true, none⟩)).delivered = .free
      ∧ (Slot.detached k (some v) m (some ⟨false, none⟩)).delivered = .detached k none false none
      ∧ (Slot.detached k (some v) m (some ⟨false, some (w, m')⟩)).delivered = .detached k (some w) m' none
      ∧ (Slot.pending k v m (some ⟨false, none⟩)).lost = .pending k v m none
      ∧ (Slot.pending k v m (some ⟨false, some (w, m')⟩)).lost = .pending k w true none
      ∧ (Slot.detached k (some v) m (some ⟨true, none⟩)).lost = .detached k (some v) m none
      ∧ (Slot.detached k (some v) m (some ⟨false, none⟩)).lost = .detached k (some v) m none
      ∧ (Slot.detached k (some v) m (some ⟨false, some (w, m')⟩)).lost = .detached k (some w) true none

/-- A posting that no window excludes and whose key has no record is admitted: a new record of the posting's width takes its
first value, with one change. In a table of 1024 records the unprotected record with the lowest decayed heat, then the oldest
access, then the lowest key is retired first (R92, R93, R95 to R98). -/
def Obligations.AbsorptionAdmitsARecord : Prop :=
  ∀ (s : State) (i : Fin 4) (p : Posting) (new : Record), AbsorbsNext i p s → TableLaw s →
    (∀ j : Fin 4, (s.wta.traps[j]).hit p = true → (s.wta.traps[j]).mode ≠ .exclude) →
    (∀ r ∈ s.rte.table, r.key ≠ p.key) →
    new =
      { key := p.key, width := p.width, seen := some ⟨p.value, p.dir⟩
        written := if p.dir = .write then some p.value else none
        held := if s.rte.hold then some .none else none, expectation := none, label := none, pinned := false
        notify := false, diverged := false, mismatched := false, unverified := false
        heat := (match p.dir with
          | .write => 4096
          | .read => 2048)
        stamp := s.rte.epoch, lastAccess := s.rte.epoch, lastChange := some s.rte.epoch, changes := 1, watch := none } →
    (s.rte.table.length < 1024 → exec (.absorption i) s = .next (settle
        { absorbedFrom i s with
          rte := { s.rte with last := .lane i, serving := none, table := insertRecord new s.rte.table }
          wta := { s.wta with traps := countedTraps p s, causes := s.wta.causes ||| trapCause p s } }))
      ∧ (s.rte.table.length = 1024 → (∃ r ∈ s.rte.table, r.pinned = false ∧ r.watch = none) →
        ∃ c ∈ s.rte.table, c.pinned = false ∧ c.watch = none
          ∧ (∀ r ∈ s.rte.table, r.pinned = false → r.watch = none → r ≠ c →
            decayedHeat c s.rte.epoch < decayedHeat r s.rte.epoch
              ∨ (decayedHeat c s.rte.epoch = decayedHeat r s.rte.epoch
                ∧ (c.lastAccess < r.lastAccess ∨ (c.lastAccess = r.lastAccess ∧ c.key.num < r.key.num))))
          ∧ exec (.absorption i) s = .next (settle
            { absorbedFrom i s with
              rte := { s.rte with
                last := .lane i, serving := none
                table := insertRecord new (s.rte.table.filter fun x => x.key ≠ c.key) }
              wta := { s.wta with traps := countedTraps p s, causes := s.wta.causes ||| trapCause p s } }))

/-- A posting that an EXCLUDE window matches reaches no record; one whose key has no record is refused when all 1024 records
are protected, which raises ADMIT and fills an empty capture. Either way every matching window has counted it, and a NOTIFY
match has raised TRAP (R91, R94, R128, R129). -/
def Obligations.AbsorptionDropsThePosting : Prop :=
  ∀ (s : State) (i : Fin 4) (p : Posting), AbsorbsNext i p s →
    ((∃ j : Fin 4, (s.wta.traps[j]).hit p = true ∧ (s.wta.traps[j]).mode = .exclude) →
        exec (.absorption i) s = .next (settle
          { absorbedFrom i s with
            wta := { s.wta with traps := countedTraps p s, causes := s.wta.causes ||| trapCause p s } }))
      ∧ ((∀ j : Fin 4, (s.wta.traps[j]).hit p = true → (s.wta.traps[j]).mode ≠ .exclude) →
        (∀ r ∈ s.rte.table, r.key ≠ p.key) → 1024 ≤ s.rte.table.length →
        (∀ r ∈ s.rte.table, r.pinned = true ∨ r.watch.isSome) →
        exec (.absorption i) s = .next (settle
          { absorbedFrom i s with
            rte := { s.rte with
              last := .lane i, serving := none, capture := some (s.rte.capture.getD (p.key, s.rte.epoch)) }
            wta := { s.wta with
              traps := countedTraps p s, causes := s.wta.causes ||| trapCause p s ||| 0x010 } }))
      ∧ ∀ j : Fin 4, (s.wta.traps[j]).hit p = true ↔
          ((s.wta.traps[j]).mode = .notify ∨ (s.wta.traps[j]).mode = .exclude)
            ∧ (s.wta.traps[j]).lane = p.key.lane ∧ (s.wta.traps[j]).target = p.key.target
            ∧ (s.wta.traps[j]).low ≤ p.key.register.toNat ∧ p.key.register.toNat ≤ (s.wta.traps[j]).high
            ∧ ((s.wta.traps[j]).dir = .both ∨ ((s.wta.traps[j]).dir = .write ∧ p.dir = .write)
              ∨ ((s.wta.traps[j]).dir = .read ∧ p.dir = .read))

/-! ## Lane requests -/

/-- A lane's marking request makes every record of the lane that has a value unverified; its retirement request retires every
record of the lane. With either, every LANE-SET and LANE-ENABLE that waits for the request is answered, with the
configuration, or the state, as the lane holds it: the one in its open transaction is sent, and those whose transaction was
cut are dropped (R19, R20, R21, R31, R99, R100, R126, R177). -/
def Obligations.LaneRequestsAreServed : Prop :=
  ∀ (s : State) (i : Fin 4) (marked kept : List Record) (lanes : Vector Lane 4) (mine : Waiting → Bool) (answered : Ctl),
    s.inReset = false → s.rte.serving = some (.lane i) →
    marked = s.rte.table.map (fun r => if r.key.lane = i ∧ r.seen.isSome then { r with unverified := true } else r) →
    kept = s.rte.table.filter (fun r => r.key.lane ≠ i) →
    lanes = s.lanes.set i { s.lanes[i] with request := none } →
    mine = (fun w => (w.cmd = .laneSet || w.cmd = .laneEnable) && byteAt w.operands 0 = i.val) →
    ((∀ w ∈ s.ctl.waiting, mine w = true → w.cut = false → w.cmd = .laneSet) ∧
        answered = answeredCtl mine ⟨.ok, byteOf i.val :: (s.lanes[i]).cfg.bytes⟩ s.ctl
      ∨ (∀ w ∈ s.ctl.waiting, mine w = true → w.cut = false → w.cmd = .laneEnable) ∧
        answered = answeredCtl mine ⟨.ok, [(s.lanes[i]).state.code]⟩ s.ctl) →
    ((s.lanes[i]).request = some .marking → exec (.marking i) s = .next (settle
        { s with
          lanes := lanes, rte := { s.rte with last := .lane i, serving := none, table := marked }, ctl := answered }))
      ∧ ((s.lanes[i]).request = some .retirement → TableLaw s →
        ∃ slots : Vector Slot 8, exec (.retirement i) s = .next (settle
            { s with
              lanes := lanes, rte := { s.rte with last := .lane i, serving := none, table := kept }
              wta := { s.wta with slots := slots }, ctl := answered })
          ∧ (BindingLaw s → SlotsAfterRetirement kept s slots))

/-! ## Refresh -/

/-- A ranking slice judges up to 64 records from the ranking cursor on, keeps the first N of all judged so far, hottest first,
then latest access, then lowest key, and goes on after the 64th, if it took 64 and a key follows; otherwise the drawing phase
begins with the table rows of the snapshot. A drawing slice composes the next four table rows, and the last one the header and
the rows that need no lookup, and queues the LINE messages of the lines that differ, or of every line in a repaint; with none
the refresh ends (R149, R150, R151). The text of each row is spelled out: RECORD, with the held view under hold, AUTO, WATCH,
PROBE and EMPTY rows and the header (R140 to R145, R153). -/
def Obligations.RefreshSlicesAreServed : Prop :=
  (∀ (s : State) (rf : Refresh), ServesRefresh rf s →
    (∀ (cursor : Key) (ranked pool : List Ranked) (took : List Record) (better : Ranked → Ranked → Bool) (n : Nat),
        rf.phase = .ranking cursor ranked → TableLaw s →
        (better = fun x y => x.heat > y.heat
          || (x.heat = y.heat && (x.access > y.access || (x.access = y.access && x.key.num < y.key.num)))) →
        n = (rf.rows.toList.filter fun r => r.binding = .auto).length →
        ranked.Pairwise (fun x y => better x y = true) → ranked.length ≤ n →
        (∀ x ∈ ranked, x.key.num < cursor.num) →
        took = (s.rte.table.filter fun r => cursor.num ≤ r.key.num).take 64 →
        pool = ranked ++ (took.filter fun r => 0 < decayedHeat r s.rte.epoch
            && rf.rows.toList.all fun row => row.binding ≠ .record r.key).map
          (fun r => ⟨r.key, decayedHeat r s.rte.epoch, r.lastAccess⟩) →
        ∃ ranked' : List Ranked,
          ranked'.Pairwise (fun x y => better x y = true)
          ∧ (∀ x, x ∈ ranked' ↔ x ∈ pool ∧ (pool.filter fun y => better y x).length < n)
          ∧ (∀ (last : Record), took.length = 64 → took.getLast? = some last → last.key.num + 1 < 2 ^ 28 →
            exec .rankingSlice s = .next (settle
              { unitDone .display s with dse := { s.dse with
                  refresh := some { rf with phase := .ranking (Key.ofNum (last.key.num + 1)) ranked' } } }))
          ∧ ((took.length < 64 ∨ ∃ last, took.getLast? = some last ∧ 2 ^ 28 ≤ last.key.num + 1) →
            exec .rankingSlice s = .next (settle
              { unitDone .display s with dse := { s.dse with
                  refresh := some { rf with
                    phase := .drawing (tableRows rf.holdOn rf.rows (ranked'.map (·.key))) [] } } })))
      ∧ ∀ (todo : List (Fin 16 × TableRow)) (composed drawn : List Composed), rf.phase = .drawing todo composed →
        drawn = composed ++ (todo.take 4).map (fun x => ⟨x.1.succ, tableRowText rf s x.1 x.2⟩) →
        (4 < todo.length → exec .drawingSlice s = .next (settle
            { unitDone .display s with dse := { s.dse with
                refresh := some { rf with phase := .drawing (todo.drop 4) drawn } } }))
        ∧ ∀ (all : List Composed) (ms : List PanelMessage), todo.length ≤ 4 →
          all = drawn ++ ⟨0, headerText rf.holdOn s⟩
            :: (((List.finRange 16).filter fun i =>
                rowComposed rf.holdOn rf.rows i && drawn.all fun c => c.n ≠ i.succ).map fun i =>
              ⟨i.succ, plainRowText s rf.rows[i]⟩) →
          ms = (List.finRange 17).filterMap (fun n => match all.find? fun c => c.n = n with
            | some c => if rf.isRepaint = true ∨ c.text ≠ s.dse.lastSent[n] then some (.line n c.text) else none
            | none => if rf.isRepaint = true then some (.line n s.dse.lastSent[n]) else none) →
          exec .drawingSlice s = .next (settle
            { unitDone .display s with dse := { s.dse with
                port := s.dse.port ++ ms
                refresh := if ms = [] then none else some { rf with phase := .sending } } }))
  ∧ (∀ (s : State) (rf : Refresh) (i : Fin 16) (k : Key) (n : Fin 8),
      (Machine.lookup k s.rte.table = none →
        tableRowText rf s i (.record k) = rowLine 0x20 (keyLine k) goneCodes (List.replicate 5 0x20)
          ∧ tableRowText rf s i (.auto k) = List.replicate 40 0x20)
      ∧ (∀ r : Record, Machine.lookup k s.rte.table = some r → (r.width = 1 ∨ r.width = 2 ∨ r.width = 4) →
        r.changes ≤ 65535 → (∀ l, r.label = some l → l.length ≤ 12) →
        tableRowText rf s i (.auto k) = recordLine (rf.rows[i]).format rf.window s.rte.epoch r.value r
          ∧ tableRowText rf s i (.record k) = recordLine (rf.rows[i]).format rf.window s.rte.epoch
            (if rf.holdOn = true then (match r.held with
              | some (.value v) => some v
              | some .none => none
              | none => r.value) else r.value) r
          ∧ (s.wta.slots[n] = .armed k → tableRowText rf s i (.watch n) =
            rowLine (markLine rf.window s.rte.epoch r) (watchColumn n (r.label.getD (keyLine r.key)))
              [0x2D, 0x2D, 0x2D, 0x2D] (countColumn r.changes))
          ∧ ∀ v m t, s.wta.slots[n] = .pending k v m t → tableRowText rf s i (.watch n) =
            rowLine (markLine rf.window s.rte.epoch r) (watchColumn n (r.label.getD (keyLine r.key)))
              (valueLine .hex r.width v ++ plus m) (countColumn r.changes))
      ∧ (s.wta.slots[n] = .free → tableRowText rf s i (.watch n) =
        rowLine 0x20 [0x57, digitCode n.val] [] (List.replicate 5 0x20))
      ∧ ∀ v m t, s.wta.slots[n] = .detached k v m t → tableRowText rf s i (.watch n) =
        rowLine 0x20 (watchColumn n (keyLine k)) (goneCodes ++ plus m) (List.replicate 5 0x20))
  ∧ ∀ (s : State) (row : Row) (p : Fin 16) (holdOn : Bool),
      ((row.binding = .empty ∨ row.binding = .auto) → plainRowText s row = List.replicate 40 0x20)
      ∧ (row.binding = .probe p → (s.pfe.probes[p]).edgesLast ≤ 65535 → plainRowText s row =
        rowLine (if (s.pfe.probes[p]).glitch then 0x67 else 0x20) (0x50 :: numeral 10 2 p.val)
          ([if (s.pfe.probes[p]).level then 0x48 else 0x4C, 0x20] ++ decimalText (s.pfe.probes[p]).edgesLast)
          (List.replicate 5 0x20))
      ∧ headerText holdOn s =
        (if holdOn then [0x48, 0x4F, 0x4C, 0x44] else List.replicate 4 0x20) ++ [0x20]
          ++ numeral 10 4 s.rte.table.length ++ [0x2F, 0x31, 0x30, 0x32, 0x34] ++ [0x20]
          ++ (([0, 1, 2, 3] : List (Fin 4)).flatMap fun i =>
            [(match (s.lanes[i]).cfg.kind with
              | .none => (0x2D : Byte)
              | .twoWire => 0x54
              | .fourWire => 0x46
              | .management => 0x4D),
            if (s.lanes[i]).flags = 0 then 0x2E else 0x21])
          ++ [0x20, 0x57] ++ numeral 10 2 (s.wta.slots.toList.filter fun x => match x with
            | .pending .. | .detached .. => true
            | .free | .armed _ => false).length
          ++ List.replicate 13 0x20

/-! ## The profile image -/

/-- The settings block is served as one unit: the two banks, the highlight window, the backlight levels, the power settings
with the sixteen wake edges and the attention enables take the block's values, clamped; a trap window, a view row, a lane or
the enables take theirs when the block's values pass the checks of the command they stand for, and keep what they hold
otherwise; an accepted lane is restarted and has a request waiting. The seeds come next, or with none the load completes (R17,
R189, R190). The items are no activity events: unless a lane that is an activity source completes a frame, the power state,
the operation in flight, the timer and the deferred mark stay; that is the model's choice (log 17), and so is the completion in
the same step (log 30). Which lane entries, trap entries and row codes are accepted, and what they give, are spelled from R200
and R201. -/
def Obligations.SettingsBlockWritesTheItems : Prop :=
  (∀ e : List Byte,
    (e.length = 6 → (parseLaneConfig (entryConfig e) = none ↔ EntryRefused e)
      ∧ ∀ c, parseLaneConfig (entryConfig e) = some c → EntryGiven e c)
    ∧ (e.length = 6 → ∀ t : Trap, entryTrap e = some t ↔
      trapModeCode t.mode = byteAt e 0 / 64 ∧ trapDirCode t.dir = byteAt e 0 / 16 % 4 ∧ t.lane.val = byteAt e 0 / 4 % 4
        ∧ t.target.toNat = byteAt e 0 % 4 * 256 + byteAt e 1 ∧ t.low = byteAt e 2 * 256 + byteAt e 3
        ∧ t.high = byteAt e 4 * 256 + byteAt e 5 ∧ t.low ≤ t.high
        ∧ t.count = 0 ∧ t.first = none ∧ t.clearNote = none)
    ∧ (e.length = 4 → rowCode e = byteAt e 0 / 4 % 16))
  ∧ ∀ (s : State) (l : Load) (b : List Byte), Loads l s → l.stage = .settings → s.rte.serving = some .profile →
    (s.pim.flash.seedCount ≤ l.next → s.pwu.deferred = false
      ∧ (l.scope = .startUp → ∀ w ∈ s.ctl.waiting, ownerOf w.cmd w.operands ≠ .ctl)) →
    b = s.pim.flash.readAll 16 128 →
    ∃ t, exec .settingsBlock s = .next t
      ∧ (l.next < s.pim.flash.seedCount →
        t.pim = { s.pim with op := .load { l with stage := .seeding } } ∧ t.ctl = s.ctl)
      ∧ (s.pim.flash.seedCount ≤ l.next →
        t.pim = { s.pim with op := .none, last := some (.load l.scope .valid l.loaded l.skipped) }
          ∧ t.wta.causes.getLsbD 6 = true
          ∧ t.ctl = (if l.scope = .startUp then
              { s.ctl with record := ⟨s.ctl.record.cause, .valid, l.loaded, l.skipped⟩ } else s.ctl))
      ∧ t.rte.table = s.rte.table ∧ t.rte.hold = s.rte.hold ∧ t.rte.last = .profile
      ∧ (∀ n : Fin 2, t.pfe.banks[n] = ⟨max 10 (min 250 (byteAt b (2 * n.val))), min 15 (byteAt b (2 * n.val + 1))⟩)
      ∧ (∀ i : Fin 4,
          (parseLaneConfig (entryConfig (bytesAt b (4 + 6 * i.val) 6)) = none →
            (t.lanes[i]).cfg = (s.lanes[i]).cfg ∧ (t.lanes[i]).enabled = (s.lanes[i]).enabled)
          ∧ ∀ c, parseLaneConfig (entryConfig (bytesAt b (4 + 6 * i.val) 6)) = some c →
            (t.lanes[i]).cfg = c ∧ (t.lanes[i]).enabled = ((b.getD (4 + 6 * i.val) 0).getLsbD 0)
              ∧ (t.lanes[i]).slot = none ∧ (t.lanes[i]).pointers = []
              ∧ (t.lanes[i]).state = (
                if (b.getD (4 + 6 * i.val) 0).getLsbD 0 = false ∨ c.kind = .none then .off
                else if c.kind = .fourWire
                  ∧ ∀ n : Fin 4, n.val < c.selectCount → t.pfe.levels (c.pins.sel[n]) = true then .idle
                else .seeking)
              ∧ (t.lanes[i]).request = some (if (s.lanes[i]).request = some .retirement
                    ∨ (s.lanes[i]).cfg.kind ≠ c.kind ∨ (s.lanes[i]).cfg.w ≠ c.w ∨ (s.lanes[i]).cfg.a ≠ c.a then
                  .retirement else .marking))
      ∧ (∀ i : Fin 4, t.wta.traps[i] = (entryTrap (bytesAt b (28 + 6 * i.val) 6)).getD s.wta.traps[i])
      ∧ (∀ i : Fin 16, t.dse.rows[i] =
          match bindingOf (rowCode (bytesAt b (52 + 4 * i.val) 4) / 3) (bytesAt b (52 + 4 * i.val) 4),
            Format.ofCode (rowCode (bytesAt b (52 + 4 * i.val) 4) % 3) with
          | some x, some f => ⟨x, f, (s.dse.rows[i]).rebound || s.rte.hold⟩
          | _, _ => s.dse.rows[i])
      ∧ t.dse.window = byteAt b 124 % 16 ∧ t.dse.runLevel = byteAt b 123 / 16 ∧ t.dse.dimLevel = byteAt b 123 % 16
      ∧ t.wta.enables = (if natAt b 125 2 < 512 then BitVec.ofNat 9 (natAt b 125 2) else s.wta.enables)
      ∧ t.pwu.dim = byteAt b 116 ∧ t.pwu.dark = byteAt b 117 ∧ t.pwu.sleep = byteAt b 118
      ∧ t.pwu.holdkeyWake = (b.getD 124 0).getLsbD 4 ∧ t.pwu.keyActivity = (b.getD 124 0).getLsbD 5
      ∧ t.pwu.linkActivity = (b.getD 124 0).getLsbD 6
      ∧ (∀ n : Fin 16, t.pwu.wakeEdges[n] = match byteAt b (119 + n.val / 4) / 4 ^ (3 - n.val % 4) % 4 with
        | 0 => .none
        | 1 => .rising
        | 2 => .falling
        | _ => .either)
      ∧ ((∀ i : Fin 4, (s.lanes[i]).cfg.activity = false) →
        t.pwu.power = s.pwu.power ∧ t.pwu.op = s.pwu.op ∧ t.pwu.timer = s.pwu.timer
          ∧ t.pwu.deferred = s.pwu.deferred)

/-- One seed is served as one unit. An entry that fails a check of R191 is skipped and changes nothing else; one that passes
amends the record of its key, or creates it, with an eviction when the table is full, and then amends it; in a full table
that protects every record the seed is refused, which skips it, raises ADMIT and fills an empty capture. The index, the
counts and the keys read move on, and after the last seed the load completes (R92, R93, R94, R110, R111, R187, R189,
R191). The fields of an entry are spelled from R200; which keys fit is in `Obligations.SeedIsServed`. -/
def Obligations.SeedIsApplied : Prop :=
  (∀ e : List Byte, e.length = 32 → parseSeed e =
    { key := keyOf (e.take 4), width := byteAt e 4, pinned := (e.getD 5 0).getLsbD 0, notify := (e.getD 5 0).getLsbD 1
      expectation := if (e.getD 6 0).getLsbD 0 then
        some ⟨BitVec.ofNat 32 (fourAt e 7), BitVec.ofNat 32 (fourAt e 11)⟩ else none
      labelLength := byteAt e 15, labelBytes := (e.drop 16).take 12 })
  ∧ ∀ (s : State) (l loaded skipped : Load) (x : SeedEntry), Loads l s → l.stage = .seeding →
    s.rte.serving = some .profile →
    (s.pim.flash.seedCount ≤ l.next + 1 → DeferredLaw s ∧ (l.scope = .startUp → OnlyReleasesWait s)) →
    x = parseSeed (s.pim.flash.readAll (144 + 32 * l.next) 32) →
    loaded = { l with next := l.next + 1, loaded := l.loaded + 1, keys := l.keys ++ [x.key] } →
    skipped = { l with next := l.next + 1, skipped := l.skipped + 1, keys := l.keys ++ [x.key] } →
    ((x.key ∈ l.keys ∨ keyFits (s.lanes[x.key.lane]).cfg x.key = false ∨ x.width ≠ (s.lanes[x.key.lane]).cfg.w
          ∨ 12 < x.labelLength ∨ ∃ b ∈ x.labelBytes.take x.labelLength, b.toNat < 0x20 ∨ 0x7E < b.toNat) →
        exec .seedApplication s = .next (settle (unitDone .profile (seedsGoOn skipped s))))
      ∧ (x.key ∉ l.keys → keyFits (s.lanes[x.key.lane]).cfg x.key = true → x.width = (s.lanes[x.key.lane]).cfg.w →
        x.labelLength ≤ 12 → (∀ b ∈ x.labelBytes.take x.labelLength, 0x20 ≤ b.toNat ∧ b.toNat ≤ 0x7E) →
        ∀ (amended : Record → Record) (new : Record),
          (amended = fun r => { r with
            label := if x.labelLength = 0 then none else some (x.labelBytes.take x.labelLength)
            pinned := x.pinned
            notify := x.notify
            expectation := x.expectation.map fun e => ⟨e.expected &&& widthMask r.width, e.mask &&& widthMask r.width⟩
            mismatched := (match x.expectation with
              | none => false
              | some e => r.mismatched || r.value.elim false fun v =>
                ((v ^^^ (e.expected &&& widthMask r.width)) &&& (e.mask &&& widthMask r.width)) != 0) }) →
          new =
            { key := x.key, width := x.width, seen := none, written := none, held := none
              expectation := none, label := none, pinned := false, notify := false, diverged := false
              mismatched := false, unverified := false, heat := 0, stamp := s.rte.epoch
              lastAccess := s.rte.epoch, lastChange := none, changes := 0, watch := none } →
          (∀ r, Machine.lookup x.key s.rte.table = some r → exec .seedApplication s = .next (settle
              (unitDone .profile (seedsGoOn loaded { s with
                rte := { s.rte with table := s.rte.table.map fun y => if y.key = x.key then amended r else y }
                wta := { s.wta with causes := s.wta.causes
                  ||| (if (amended r).mismatched && !r.mismatched then 0x002 else 0) } }))))
          ∧ ((∀ r ∈ s.rte.table, r.key ≠ x.key) → s.rte.table.length < 1024 →
            exec .seedApplication s = .next (settle
              (unitDone .profile (seedsGoOn loaded { s with
                rte := { s.rte with table := insertRecord (amended new) s.rte.table } }))))
          ∧ ((∀ r ∈ s.rte.table, r.key ≠ x.key) → s.rte.table.length = 1024 → TableLaw s →
            (∃ r ∈ s.rte.table, r.pinned = false ∧ r.watch = none) →
            ∃ c ∈ s.rte.table, c.pinned = false ∧ c.watch = none
              ∧ (∀ r ∈ s.rte.table, r.pinned = false → r.watch = none → r ≠ c →
                decayedHeat c s.rte.epoch < decayedHeat r s.rte.epoch
                  ∨ (decayedHeat c s.rte.epoch = decayedHeat r s.rte.epoch
                    ∧ (c.lastAccess < r.lastAccess ∨ (c.lastAccess = r.lastAccess ∧ c.key.num < r.key.num))))
              ∧ exec .seedApplication s = .next (settle
                (unitDone .profile (seedsGoOn loaded { s with
                  rte := { s.rte with
                    table := insertRecord (amended new) (s.rte.table.filter fun y => y.key ≠ c.key) } }))))
          ∧ ((∀ r ∈ s.rte.table, r.key ≠ x.key) → 1024 ≤ s.rte.table.length →
            (∀ r ∈ s.rte.table, r.pinned = true ∨ r.watch.isSome) →
            exec .seedApplication s = .next (settle
              (unitDone .profile (seedsGoOn skipped { s with
                rte := { s.rte with capture := some (s.rte.capture.getD (x.key, s.rte.epoch)) }
                wta := { s.wta with causes := s.wta.causes ||| 0x010 } })))))

/-- The judgement of an image: BLANK when its first four bytes are 0xFF, otherwise CORRUPT at the first failing check
of signature, version, seed count, settings length and sum, and VALID when all five pass (R188). A load that is
reading takes it: a VALID image leads to its settings, or under SEEDS to its seeds, and any other, or a VALID one
without seeds under SEEDS, completes the load: the last outcome set, PROFILE raised, and a deferred sleep-timer expiry
taken; after the start-up load the reset cause record written, the waiting RELEASEs answered with it, and in RUN and DIM
the panel ON with a repaint (R155, R159, R180, R187, R189, R192). That a load without seeds completes in the same step is
the model's (log 30). -/
def Obligations.ImageIsJudged : Prop :=
  (∀ m : Flash, m.judge =
      if m.readAll 0 4 = [0xFF, 0xFF, 0xFF, 0xFF] then .blank
      else if m.readAll 0 2 = [0x4E, 0x57] ∧ m.readAll 2 2 = [0xB1, 0xA8] ∧ m.read 4 = 1
          ∧ beNat (m.readAll 5 2) ≤ 256 ∧ beNat (m.readAll 7 2) = 128
          ∧ ((m.readAll 0 (16 + 128 + 32 * beNat (m.readAll 5 2))).map BitVec.toNat).sum % 256 = 0 then .valid
      else .corrupt)
    ∧ ∀ (s : State) (l : Load), Loads l s → l.stage = .reading →
      (s.pim.flash.judge = .valid → l.scope ≠ .seeds → exec .imageJudgement s = .next (settle
          { s with pim := { s.pim with op := .load { l with stage := .settings, validity := some .valid } } }))
        ∧ (s.pim.flash.judge = .valid → l.scope = .seeds → l.next < s.pim.flash.seedCount →
          exec .imageJudgement s = .next (settle
            { s with pim := { s.pim with op := .load { l with stage := .seeding, validity := some .valid } } }))
        ∧ (s.pim.flash.judge = .valid → l.scope = .seeds → s.pim.flash.seedCount ≤ l.next → DeferredLaw s →
          exec .imageJudgement s = .next (settle (loadCompleted l .valid s)))
        ∧ (s.pim.flash.judge ≠ .valid → DeferredLaw s → (l.scope = .startUp → OnlyReleasesWait s) →
          exec .imageJudgement s = .next (settle (loadCompleted l s.pim.flash.judge s)))

/-- The five stages of a store, each made while it is in flight: INVALIDATE writes 0x00 to the fourth byte, ERASE
leaves 0xFF from offset 4 to offset 8335, PROGRAM writes the image but for the fourth byte (a cell named as a defect
holds another byte, log 8), VERIFY reads it back and fails the store at any difference, COMMIT writes 0xA8 and
completes it. A completion sets the last outcome, raises PROFILE, and begins a sleep entry that was deferred (R159, R187,
R194). That a stage writes the flash at its completion is the model's (log 9). -/
def Obligations.StoreStagesWriteTheFlash : Prop :=
  ∀ (s : State), s.inReset = false → FlashLaw s →
    (s.pim.op = .store .invalidate → ∃ m : Flash,
        exec .invalidate s = .next (settle { s with pim := { s.pim with flash := m, op := .store .erase } })
          ∧ ∀ a, m.read a = if a = 3 then 0x00 else s.pim.flash.read a)
      ∧ (s.pim.op = .store .erase → ∃ m : Flash,
        exec .erase s = .next (settle { s with pim := { s.pim with flash := m, op := .store .program } })
          ∧ ∀ a, m.read a = if 4 ≤ a ∧ a ≤ 8335 then 0xFF else s.pim.flash.read a)
      ∧ (∀ ds : List Host.Cell, s.pim.op = .store .program → 4 ≤ s.pim.image.bytes.length → (ds.map (·.1)).Nodup →
        ∃ m : Flash, exec (.program ds) s = .next (settle
            { s with pim := { s.pim with flash := m, op := .store .verify } })
          ∧ ∀ a, m.read a = if a ≠ 3 ∧ a < s.pim.image.bytes.length then
              ((ds.find? fun d => d.1 = a).map (·.2)).getD (s.pim.image.bytes.getD a 0)
            else s.pim.flash.read a)
      ∧ (s.pim.op = .store .verify → 4 ≤ s.pim.image.bytes.length →
        ((∀ a, a < s.pim.image.bytes.length → a ≠ 3 → s.pim.flash.read a = s.pim.image.bytes.getD a 0) →
          exec .verify s = .next (settle { s with pim := { s.pim with op := .store .commit } }))
        ∧ ((∃ a, a < s.pim.image.bytes.length ∧ a ≠ 3 ∧ s.pim.flash.read a ≠ s.pim.image.bytes.getD a 0) →
          DeferredLaw s → exec .verify s = .next (settle
            (profileCompleted (.store true s.pim.image.seeds s.pim.image.truncated) s))))
      ∧ (s.pim.op = .store .commit → DeferredLaw s → ∃ m : Flash,
        exec .commit s = .next (settle
          (profileCompleted (.store false s.pim.image.seeds s.pim.image.truncated)
            { s with pim := { s.pim with flash := m } }))
          ∧ ∀ a, m.read a = if a = 3 then 0xA8 else s.pim.flash.read a)

/-! ## Time -/

/-- The epoch timer expires: the counter rises by 1, saturating at 2^32 - 1, and every probe's edge count moves into
the last epoch's and starts again at 0, with level, glitch mark and candidate untouched. A halted timer does not
expire (R7, R86). That the expiry of a timer which does not run changes nothing is the model's (log 3). -/
def Obligations.EpochExpiryClosesTheEpoch : Prop :=
  ∀ s : State, s.inReset = false →
    (s.rte.epochTimer = true → exec .epochExpiry s = .next (settle
        { s with
          rte := { s.rte with epoch := min (2 ^ 32 - 1) (s.rte.epoch + 1) }
          pfe := { s.pfe with probes := Vector.ofFn fun i =>
            { s.pfe.probes[i] with edgesLast := (s.pfe.probes[i]).edgesNow, edgesNow := 0 } } }))
      ∧ (s.rte.epochTimer = false → exec .epochExpiry s = .next (settle s))

/-- The chain timers expire in the state each runs in: dim takes RUN to DIM and dark takes DIM to DARK, each starting
the next timer with its full setting unless that is 0, with the panel's refresh timer at 500 ms in DIM and the panel
OFF in DARK. The sleep timer begins sleep entry, in which a lane that is not OFF is SEEKING, or IDLE with no select
active, or sets the deferred mark while a profile operation is in flight (R36, R60, R71, R147, R154, R158, R159, R162).
That the expiry of a timer which does not run changes nothing is the model's (log 3), and so is that no PANEL-OFF is queued
where the panel is OFF already (log 27). -/
def Obligations.ChainTimersExpire : Prop :=
  ∀ s : State, s.inReset = false →
    (∀ n, s.pwu.power = .run → s.pwu.timer = some (.dim, n) → exec .dimTimerExpiry s = .next (settle
        { s with
          pwu := { s.pwu with
            power := .dim, timer := if s.pwu.dark = 0 then none else some (.dark, s.pwu.dark) }
          dse := { s.dse with refreshTimer := if s.dse.panelOn then some 500 else s.dse.refreshTimer } }))
      ∧ (∀ n, s.pwu.power = .dim → s.pwu.timer = some (.dark, n) → s.dse.panelOn = true →
        exec .darkTimerExpiry s = .next (settle
          { s with
            pwu := { s.pwu with
              power := .dark, timer := if s.pwu.sleep = 0 then none else some (.sleep, s.pwu.sleep) }
            dse := { s.dse with
              panelOn := false, refreshTimer := none, refresh := none
              port := (match s.dse.port with
                | [] => []
                | m :: ms => m :: ms.filter fun x => !x.isLine) ++ [.panelOff] } }))
      ∧ (∀ n, s.pwu.power = .dim → s.pwu.timer = some (.dark, n) → s.dse.panelOn = false →
        exec .darkTimerExpiry s = .next (settle
          { s with pwu := { s.pwu with
              power := .dark, timer := if s.pwu.sleep = 0 then none else some (.sleep, s.pwu.sleep) } }))
      ∧ (∀ n, s.pwu.power = .dark → s.pwu.timer = some (.sleep, n) → s.pim.op ≠ .none →
        exec .sleepTimerExpiry s = .next (settle
          { s with pwu := { s.pwu with timer := none, deferred := true } }))
      ∧ (∀ n, s.pwu.power = .dark → s.pwu.timer = some (.sleep, n) → s.pim.op = .none → s.pwu.op = .none →
        s.dse.panelOn = false → exec .sleepTimerExpiry s = .next (settle
          (sleepEntered s)))
      ∧ ((∀ n, s.pwu.timer ≠ some (.dim, n)) → exec .dimTimerExpiry s = .next (settle s))
      ∧ ((∀ n, s.pwu.timer ≠ some (.dark, n)) → exec .darkTimerExpiry s = .next (settle s))
      ∧ ((∀ n, s.pwu.timer ≠ some (.sleep, n)) → exec .sleepTimerExpiry s = .next (settle s))

/-! ## Sleep and wake -/

/-- Sleep entry completes once every slot, request and position is empty and LSEL is high: the part is in SLEEP, the epoch timer
halts, the filters lose their candidates, and each wake source's comparator starts from the level its record holds; where its
pin already differs it starts a candidate, or with glitch width 0 takes the edge at once. In SLEEP a qualified wake-side edge of
the configured direction adds its probe to the wake pending set and begins wake. When wake completes the part is in RUN with
every probe record at its comparator's level, the epoch timer running, the enabled lanes restarted, WAKE raised and the panel
ON. Of the commands taken while wake was in flight, those of the RTE join the ones that wait, in their order; and one alone,
whatever its byte, its transaction open, is judged and served as at its taking in the RUN that follows: a VIEW-OPTIONS is
answered, or refused by a HELD link (R13, R14, R15, R163, R166, R167). That a comparator judges its pin at the entry is the
model's reading (log 10), and that VIEW-OPTIONS is answered in the same step is log 11. -/
def Obligations.SleepAndWake : Prop :=
  ∀ s : State, s.inReset = false →
    (s.pwu.op = .sleepEntry → s.ctl.lselLow = false → s.rte.serving = none →
        (∀ i : Fin 4, (s.lanes[i]).slot = none ∧ (s.lanes[i]).request = none) → (∀ p, unitWaits s p = false) →
        ∃ t, exec .sleepEntryCompletion s = .next t ∧ t.pwu.power = .sleep ∧ t.rte.epochTimer = false
          ∧ (∀ i : Fin 16, (t.pfe.probes[i]).candidate = none ∧ (t.pfe.probes[i]).level = (s.pfe.probes[i]).level
            ∧ (t.pfe.probes[i]).glitch = (s.pfe.probes[i]).glitch
            ∧ (t.pfe.probes[i]).edgesNow = (s.pfe.probes[i]).edgesNow
            ∧ (t.pfe.probes[i]).edgesLast = (s.pfe.probes[i]).edgesLast
            ∧ (t.pfe.probes[i]).wake =
              if s.pwu.wakeEdges[i] = .none then none
              else if s.pfe.raw i = (s.pfe.probes[i]).level then some ⟨(s.pfe.probes[i]).level, none⟩
              else if (s.pfe.bank i).width = 0 then some ⟨s.pfe.raw i, none⟩
              else some ⟨(s.pfe.probes[i]).level, some ⟨s.pfe.raw i, (s.pfe.bank i).width⟩⟩)
          ∧ (∀ reports : Fin 16 → Bool, (reports = fun i => s.pfe.raw i != (s.pfe.probes[i]).level
              && (s.pfe.bank i).width = 0 && (match s.pwu.wakeEdges[i] with
                | .none => false
                | .rising => s.pfe.raw i
                | .falling => !s.pfe.raw i
                | .either => true)) →
            (∀ i : Fin 16, t.pwu.wakePending.probes.getLsbD i = (s.pwu.wakePending.probes.getLsbD i || reports i))
            ∧ t.pwu = { s.pwu with
              power := .sleep, op := if ∃ i, reports i = true then .wake else .none
              wakePending := { s.pwu.wakePending with probes := t.pwu.wakePending.probes } })
          ∧ t.lanes = s.lanes ∧ t.rte.table = s.rte.table ∧ t.wta = s.wta ∧ t.dse = s.dse ∧ t.ctl = s.ctl
          ∧ t.pim = s.pim)
      ∧ (∀ (i : Fin 16) (c : Candidate) (ref hit : Bool), s.pwu.power = .sleep →
        (s.pfe.probes[i]).wake = some ⟨ref, some c⟩ →
        hit = (match s.pwu.wakeEdges[i] with
          | .none => false
          | .rising => c.level
          | .falling => !c.level
          | .either => true) →
        exec (.wakeSideEdge i) s = .next (settle
          { s with
            pfe := { s.pfe with probes := s.pfe.probes.set i { s.pfe.probes[i] with wake := some ⟨c.level, none⟩ } }
            pwu := if hit then { s.pwu with
                op := .wake
                wakePending := { s.pwu.wakePending with probes := s.pwu.wakePending.probes ||| (1 <<< i.val) } }
              else s.pwu }))
      ∧ (∀ (ws : List Waiting) (v : Byte) (ctl : Ctl) (window : Nat), s.pwu.op = .wake → startUpDone s = true →
        s.dse.panelOn = false →
        (s.ctl.deferred = ws.map (fun w => ⟨w.cmd.code, Frame.ofOperands w.operands, w.cut⟩)
            ∧ (ws = [] ∨ s.ctl.link = .ready)
            ∧ (∀ w ∈ ws, ownerOf w.cmd w.operands = .rte ∧ w.operands.length = w.cmd.operandLength)
            ∧ ctl = { s.ctl with
              deferred := [], waiting := s.ctl.waiting ++ ws
              phase := if ws.any (fun w => !w.cut) then .waiting else s.ctl.phase }
            ∧ window = s.dse.window
          ∨ s.ctl.deferred = [⟨0x39, ⟨1, [v]⟩, false⟩] ∧ s.ctl.link = .ready
            ∧ (∀ w ∈ s.ctl.waiting, ownerOf w.cmd w.operands ≠ .dse)
            ∧ ctl = { s.ctl with
              deferred := [], phase := .answer
              txn := { s.ctl.txn with
                answer := Answer.bytes ⟨.ok, [byteOf (min 15 v.toNat)]⟩, sent := 0, restarts := false, sleeps := false } }
            ∧ window = min 15 v.toNat
          ∨ s.ctl.deferred = [⟨0x39, ⟨1, [v]⟩, false⟩] ∧ s.ctl.link = .held
            ∧ ctl = { s.ctl with
              deferred := [], phase := .answer
              txn := { s.ctl.txn with
                answer := Answer.bytes ⟨.held, []⟩, sent := 0, restarts := false, sleeps := false } }
            ∧ window = s.dse.window) →
        ∃ t, exec .wakeCompletion s = .next t
          ∧ t.pwu = ran s.pwu
          ∧ (∀ i : Fin 16, t.pfe.probes[i] = { s.pfe.probes[i] with
              level := decide (20 * (s.pfe.bank i).code ≤ s.pfe.pins[i]), edgesNow := 0, edgesLast := 0
              candidate := none, wake := none })
          ∧ t.rte.epochTimer = true ∧ t.rte.table = s.rte.table ∧ t.rte.epoch = s.rte.epoch
          ∧ (∀ i : Fin 4, t.lanes[i] =
            if (s.lanes[i]).enabled then (s.lanes[i]).restart .marking t.pfe.levels else s.lanes[i])
          ∧ t.wta = { s.wta with causes := s.wta.causes ||| 0x080 }
          ∧ t.dse = { panelCameOn 100 s with window := window } ∧ t.ctl = ctl ∧ t.pim = s.pim)
      ∧ (∀ (byte : Byte) (f : Frame) (woken open' : State), s.pwu.op = .wake → s.ctl.lselLow = true →
        s.ctl.phase = .waiting → s.ctl.txn = Txn.ofFrame byte f → s.ctl.cell = some takingCell → f.wellFormed = true →
        s.ctl.deferred = [⟨byte, f, false⟩] →
        exec .wakeCompletion { s with ctl := { s.ctl with deferred := [] } } = .next woken →
        open' = { woken with
          rte := { woken.rte with serving := s.rte.serving }
          ctl := { woken.ctl with phase := .command, txn := Txn.empty, cell := some ⟨[], false, 0xFF, false⟩ } } →
        (∀ c, Cmd.ofByte byte = some c → exec .wakeCompletion s = exec (takenRow c f) open')
        ∧ (Cmd.ofByte byte = none → exec .wakeCompletion s = exec (.unknownCommand byte f) open'))

/-- The HOLDKEY input: a level other than the debounced one starts a candidate if none is held, the debounced level
discards it, and 20 ms at the candidate level move the debounced level. A press qualified in RUN, DIM or DARK, sleep
entry included, toggles hold, raises HOLD and, while key activity is yes, is an activity event, which brings the part to
RUN with the dim timer fresh, ends a sleep entry and turns a panel that is OFF on; in SLEEP it toggles nothing and, while
HOLDKEY wake is enabled, is a wake event; a press from a candidate that the release of the reset started, and a release of
the key, have no further effect (R101, R147, R155, R160, R161, R164, R166). That the toggle comes before the activity
event is the model's order (log 16), and that an expiry without a candidate changes nothing is its choice (log 3). -/
def Obligations.HoldKeyIsDebounced : Prop :=
  ∀ s : State, s.inReset = false →
    (∀ low, exec (.holdkeyChange low) s = .next (settle
        { s with pwu := { s.pwu with
            keyLow := low
            keyCandidate := if low = s.pwu.keyPressed then none
              else some (s.pwu.keyCandidate.getD ⟨low, false⟩) } }))
      ∧ (s.pwu.keyCandidate = none → exec .debounceExpiry s = .next (settle s))
      ∧ (∀ c, s.pwu.keyCandidate = some c → (c.pressed = false ∨ c.fromReset = true) →
        exec .debounceExpiry s = .next (settle
          { s with pwu := { s.pwu with keyPressed := c.pressed, keyCandidate := none } }))
      ∧ (∀ pressed : State, s.pwu.keyCandidate = some ⟨true, false⟩ → s.pwu.power ≠ .sleep →
        pressed = { s with
          pwu := { s.pwu with keyPressed := true, keyCandidate := none }
          rte := { s.rte with
            hold := !s.rte.hold
            table := if s.rte.hold then s.rte.table.map fun r => { r with held := none } else s.rte.table }
          dse := { s.dse with rows := Vector.ofFn fun i => { s.dse.rows[i] with rebound := false } }
          wta := { s.wta with causes := s.wta.causes ||| 0x100 } } →
        (s.pwu.keyActivity = false → exec .debounceExpiry s = .next (settle pressed))
        ∧ (s.pwu.keyActivity = true → s.pwu.op = .none → s.pwu.power = .run →
          exec .debounceExpiry s = .next (settle { pressed with pwu := ran pressed.pwu }))
        ∧ (s.pwu.keyActivity = true → s.pwu.op = .none → s.pwu.power = .dim →
          exec .debounceExpiry s = .next (settle { pressed with
            pwu := ran pressed.pwu
            dse := { pressed.dse with
              refreshTimer := if s.dse.panelOn then some 100 else s.dse.refreshTimer } }))
        ∧ (s.pwu.keyActivity = true → s.pwu.op ≠ .wake → s.pwu.power = .dark → s.dse.panelOn = false →
          exec .debounceExpiry s = .next (settle { pressed with
            pwu := ran pressed.pwu
            lanes := if s.pwu.op = .sleepEntry then Vector.ofFn (fun i =>
                if (s.lanes[i]).enabled then (s.lanes[i]).restart .marking s.pfe.levels else s.lanes[i])
              else s.lanes
            dse := if startUpDone s then panelCameOn 100 pressed else pressed.dse })))
      ∧ (s.pwu.keyCandidate = some ⟨true, false⟩ → s.pwu.power = .sleep → exec .debounceExpiry s = .next (settle
          { s with pwu := if s.pwu.holdkeyWake then
              { s.pwu with
                keyPressed := true, keyCandidate := none, op := .wake
                wakePending := { s.pwu.wakePending with holdkey := true } }
            else { s.pwu with keyPressed := true, keyCandidate := none } }))

/-! ## The panel -/

/-- The refresh timer expires: a refresh starts with its snapshot unless one is in flight, and ranks only when hold is
off and a row is AUTO. A LINE message sent whole becomes its line's last-sent text, and the last one of a refresh ends
it; PANEL-ON and PANEL-OFF messages just leave the port, whose bytes are those of its messages in order (R147, R148,
R151, R154, R199). The backlight carries the RUN level in RUN and the DIM level in DIM while the panel is ON, and 0 otherwise
(R156). That an expiry of a stopped refresh timer changes nothing is the model's (log 3). -/
def Obligations.PanelEvents : Prop :=
  ∀ s : State, s.inReset = false →
    (∀ n, s.dse.refreshTimer = some n → s.dse.refresh = none → exec .refreshExpiry s = .next (settle
        { s with dse := { s.dse with refresh := some (refreshStarted false s) } }))
      ∧ ((s.dse.refreshTimer = none ∨ s.dse.refresh ≠ none) → exec .refreshExpiry s = .next (settle s))
      ∧ (∀ n text rest, s.dse.port = .line n text :: rest → exec .line s = .next (settle
        { s with dse := { s.dse with
            port := rest
            lastSent := s.dse.lastSent.set n text
            refresh := match s.dse.refresh with
              | some rf => if rf.phase = .sending ∧ (∀ m ∈ rest, m.isLine = false) then none else some rf
              | none => none } }))
      ∧ (∀ rest, (s.dse.port = .panelOn :: rest ∨ s.dse.port = .panelOff :: rest) →
        exec .panelMessageSent s = .next (settle { s with dse := { s.dse with port := rest } }))
      ∧ (∀ (m : PanelMessage) (rest : List PanelMessage) (t : State), s.dse.port = m :: rest →
        t = { s with dse := { s.dse with port := rest } } →
        s.portBytes = (match m with
          | .line n text => [0x01, BitVec.ofNat 8 n.val] ++ text
          | .panelOn => [0x02]
          | .panelOff => [0x03]) ++ t.portBytes)
      ∧ (s.dse.panelOn = true → s.pwu.power = .run → s.backlight = s.dse.runLevel)
      ∧ (s.dse.panelOn = true → s.pwu.power = .dim → s.backlight = s.dse.dimLevel)
      ∧ ((s.dse.panelOn = false ∨ s.pwu.power = .dark ∨ s.pwu.power = .sleep) → s.backlight = 0)

/-! ## Probes -/

/-- Out of SLEEP, at one moment, the candidates due then become qualified edges, pins take new voltages, and the filter of each
probe that moved judges its raw level: a first raw level other than the record's starts a candidate, one that returns within
the width is a rejection, which sets the glitch mark and withdraws a clear note, and with width 0 the change is qualified at
once. Each qualified edge is the level and the edge count in the record, and the edges of the moment, of expiries and of widths
of 0 alike, reach each lane that reads as one change of levels; lanes stopped by sleep entry disregard them (R2 to R6, R8, R13,
R36, R59). In SLEEP the records stay, and the comparators of the wake sources judge the raw levels against their references; an
edge that width 0 qualifies at once moves the reference and, in the configured direction, begins wake (R13, R14, R166). That a
candidate due at the moment its pin moves is qualified first is the model's order, and so are the marks of candidates due at the
next bank change (log 26); that a probe which then has two edges at that moment counts both and shows the lanes neither is its
choice (log 32). -/
def Obligations.ProbesAreFiltered : Prop :=
  (∀ (s : State) (cs : List PinChange) (due : List (Fin 16)) (x : Pfe) (reports : Fin 16 → Bool), s.inReset = false →
    s.pwu.power = .sleep → x = { s.pfe with pins := cs.foldl (fun v c => v.set c.probe c.millivolts) s.pfe.pins } →
    (reports = fun i => cs.any (fun c => c.probe = i) && (s.pfe.bank i).width = 0 && (s.pfe.probes[i]).wake.any fun w =>
      w.candidate.isNone && x.raw i != w.ref && (match s.pwu.wakeEdges[i] with
        | .none => false
        | .rising => x.raw i
        | .falling => !x.raw i
        | .either => true)) →
    (∃ t, exec (.rawLevelChange ⟨cs, due⟩) s = .next t ∧ t.pfe.pins = x.pins ∧ t.pfe.banks = s.pfe.banks
      ∧ (∀ i : Fin 16, t.pfe.probes[i] = { s.pfe.probes[i] with
        wake := (s.pfe.probes[i]).wake.map fun w =>
          if cs.any (fun c => c.probe = i) then
            if x.raw i = w.ref then ⟨w.ref, none⟩
            else if w.candidate.isSome then w
            else if (s.pfe.bank i).width = 0 then ⟨x.raw i, none⟩
            else ⟨w.ref, some ⟨x.raw i, (s.pfe.bank i).width⟩⟩
          else w })
      ∧ (∀ i : Fin 16, t.pwu.wakePending.probes.getLsbD i = (s.pwu.wakePending.probes.getLsbD i || reports i))
      ∧ t.pwu.op = (if ∃ i, reports i = true then .wake else s.pwu.op)
      ∧ t.pwu.power = .sleep ∧ t.lanes = s.lanes ∧ t.rte.table = s.rte.table ∧ t.wta = s.wta ∧ t.dse = s.dse
      ∧ t.ctl = s.ctl ∧ t.pim = s.pim)
    ∧ ∀ e, exec (.qualifiedEdge e) s = .next (settle s))
  ∧ ∀ (s : State) (due : List (Fin 16)) (qualified : Fin 16 → Probe), s.inReset = false → s.pwu.power ≠ .sleep →
    exec (.qualifiedEdge ⟨due, true⟩) s = .next (settle { s with pfe := { s.pfe with due := due } }) ∧
    ((qualified = fun i => match (s.pfe.probes[i]).candidate with
      | some c =>
        if i ∈ due then { s.pfe.probes[i] with
          level := c.level, edgesNow := min 65535 ((s.pfe.probes[i]).edgesNow + 1), candidate := none }
        else s.pfe.probes[i]
      | none => s.pfe.probes[i]) →
    (∀ (cs : List PinChange) (x : Pfe), x = { s.pfe with pins := cs.foldl (fun v c => v.set c.probe c.millivolts) s.pfe.pins } →
        ∃ t, exec (.rawLevelChange ⟨cs, due⟩) s = .next t ∧ t.pfe.pins = x.pins ∧ t.pfe.banks = s.pfe.banks
          ∧ (∀ i : Fin 16, t.pfe.probes[i] =
            (if cs.any (fun c => c.probe = i) then
              match (qualified i).candidate with
              | some _ =>
                if x.raw i = (qualified i).level then
                  { qualified i with candidate := none, glitch := true, clearNote := false }
                else qualified i
              | none =>
                if x.raw i = (qualified i).level then qualified i
                else if (s.pfe.bank i).width = 0 then
                  { qualified i with
                    level := x.raw i, edgesNow := min 65535 ((qualified i).edgesNow + 1), candidate := none }
                else { qualified i with candidate := some ⟨x.raw i, (s.pfe.bank i).width⟩ }
            else qualified i))
          ∧ (∀ i : Fin 4, t.lanes[i] = if s.pwu.op = .sleepEntry then s.lanes[i]
            else (laneChange i s.pfe.levels t.pfe.levels s.lanes[i]).lane)
          ∧ t.rte.table = s.rte.table ∧ t.wta.slots = s.wta.slots ∧ t.ctl = s.ctl ∧ t.pim = s.pim
          ∧ t.dse.rows = s.dse.rows)
      ∧ ∃ t, exec (.qualifiedEdge ⟨due, false⟩) s = .next t ∧ t.pfe.pins = s.pfe.pins
          ∧ t.pfe.banks = s.pfe.banks ∧ (∀ i : Fin 16, t.pfe.probes[i] = qualified i)
          ∧ (∀ i : Fin 4, t.lanes[i] = if s.pwu.op = .sleepEntry then s.lanes[i]
            else (laneChange i s.pfe.levels t.pfe.levels s.lanes[i]).lane)
          ∧ t.rte.table = s.rte.table ∧ t.wta.slots = s.wta.slots ∧ t.ctl = s.ctl ∧ t.pim = s.pim
          ∧ t.dse.rows = s.dse.rows)

/-! ## Buses -/

/-- A two-wire transfer, byte cell by byte cell. A clock rise samples the data and the fall takes the bit (R38). The address
byte, with ACK, leads a WRITE to the pointer, a READ to the data of its target's pointer, which moves to the front of the
table, or sets UNKNOWN-POINTER; a ten-bit WRITE takes its low byte and is kept for the ten-bit READ of the same frame; a NACK
and the general call lead to IGNORE (R44 to R48, R52, R53). The A-th pointer byte sets the pointer; a NACK of a pointer or of
a WRITE's data sets REFUSED-BYTE (R49, R51). The W-th byte of a register posts it at the pointer, in the lane's byte order,
and steps the pointer; a full slot loses the posting with OVERRUN; a READ's NACK keeps the byte and ends its data (R24, R25,
R47, R50, R52). Address, pointer and data byte of a WRITE with W = 1 and A = 1 together post one register (R40, R44, R49,
R50). -/
def Obligations.TwoWireWritePosts : Prop :=
  (∀ (i : Fin 4) (l : Lane) (lv lv' lv'' : Levels), l.decodesTransfer = true →
      lv l.cfg.pins.twoClock = false → lv' l.cfg.pins.twoClock = true → lv'' l.cfg.pins.twoClock = false →
      (twoWireChange i lv' lv'' (twoWireChange i lv lv' l).lane).lane =
        Lane.twoBit i (lv' l.cfg.pins.twoData) { l with two := { l.two with sample := none } })
    ∧ (∀ (i : Fin 4) (l : Lane) (address : BitVec 7) (pointer data : Byte), l.state = .inFrame →
      l.two = ⟨[], none, .address, none⟩ → l.cfg.w = 1 → l.cfg.a = 1 → l.cfg.tenBit = false → l.slot = none →
      address ≠ 0 →
      (byteBits (address ++ 0#1) ++ [false] ++ byteBits pointer ++ [false] ++ byteBits data ++ [false]).foldl
          (fun l b => l.twoBit i b) l =
        { l with
          slot := some ⟨⟨i, address.setWidth 10, pointer.setWidth 16⟩, .write, data.setWidth 32, 1⟩
          pointers := (address.setWidth 10, (pointer + 1).setWidth 16)
            :: (l.pointers.filter fun e => e.1 ≠ address.setWidth 10).take 7
          two := ⟨[], none, .data (address.setWidth 10) .write [], none⟩ })
    ∧ (∀ (i : Fin 4) (l : Lane), l.two.bits = [] → l.two.phase = .address →
      (∀ (address : BitVec 7) (bit : BitVec 1) (ack : Bool), ack = false ∨ address = 0 →
        afterByteCell i (address ++ bit) ack l = inPhase (.ignore none) l)
      ∧ (∀ address : BitVec 7, address ≠ 0 → ¬ (l.cfg.tenBit = true ∧ address.extractLsb' 2 5 = 0x1E) →
        afterByteCell i (address ++ 0#1) true l = inPhase (.pointer (address.setWidth 10) []) l
        ∧ (∀ p, (l.pointers.find? fun e => e.1 = address.setWidth 10) = some (address.setWidth 10, p) →
          afterByteCell i (address ++ 1#1) true l = { inPhase (.data (address.setWidth 10) .read []) l with
            pointers := pointerInFront (address.setWidth 10) p l.pointers })
        ∧ ((∀ e ∈ l.pointers, e.1 ≠ address.setWidth 10) →
          afterByteCell i (address ++ 1#1) true l = inPhase (.ignore none) (flagged 0x008 l)))
      ∧ (∀ (high : BitVec 2) (low : Byte), l.cfg.tenBit = true →
        afterByteCell i low true (afterByteCell i (0x1E#5 ++ high ++ 0#1) true l) =
            { l with two := { l.two with phase := .pointer (high ++ low) [], frameTarget := some (high ++ low) } }
          ∧ afterByteCell i low false (afterByteCell i (0x1E#5 ++ high ++ 0#1) true l) = inPhase (.ignore none) l
          ∧ (l.two.frameTarget = none → afterByteCell i (0x1E#5 ++ high ++ 1#1) true l = inPhase (.ignore none) l)
          ∧ ∀ (h : BitVec 2) (lo : Byte), l.two.frameTarget = some (h ++ lo) →
            (h ≠ high → afterByteCell i (0x1E#5 ++ high ++ 1#1) true l = inPhase (.ignore none) l)
            ∧ (∀ p, h = high → (l.pointers.find? fun e => e.1 = h ++ lo) = some (h ++ lo, p) →
              afterByteCell i (0x1E#5 ++ high ++ 1#1) true l = { inPhase (.data (h ++ lo) .read []) l with
                pointers := pointerInFront (h ++ lo) p l.pointers })
            ∧ (h = high → (∀ e ∈ l.pointers, e.1 ≠ h ++ lo) →
              afterByteCell i (0x1E#5 ++ high ++ 1#1) true l = inPhase (.ignore none) (flagged 0x008 l))))
    ∧ (∀ (i : Fin 4) (l : Lane) (t : BitVec 10) (bs : List Byte) (b : Byte), l.two.bits = [] →
      l.two.phase = .pointer t bs →
      (afterByteCell i b false l = inPhase (.ignore none) (flagged 0x010 l))
      ∧ (bs.length + 1 < l.cfg.a → afterByteCell i b true l = inPhase (.pointer t (bs ++ [b])) l)
      ∧ (bs.length + 1 = l.cfg.a → afterByteCell i b true l = { inPhase (.data t .write []) l with
          pointers := pointerInFront t ((orderedValue .big (bs ++ [b])).setWidth 16) l.pointers }))
    ∧ ∀ (i : Fin 4) (l : Lane) (t : BitVec 10) (dir : Dir) (bs : List Byte) (b : Byte) (ack : Bool) (p : BitVec 16),
      l.two.bits = [] → l.two.phase = .data t dir bs →
      (l.pointers.find? fun e => e.1 = t) = some (t, p) →
      (dir = .write → ack = false → afterByteCell i b ack l = inPhase (.ignore none) (flagged 0x010 l))
      ∧ (dir = .read ∨ ack = true → bs.length + 1 < l.cfg.w → afterByteCell i b ack l =
        inPhase (if ack then .data t dir (bs ++ [b]) else .ignore (some (bs ++ [b]))) l)
      ∧ (dir = .read ∨ ack = true → bs.length + 1 = l.cfg.w → afterByteCell i b ack l =
        inPhase (if ack then .data t dir [] else .ignore (some []))
          { (if l.slot = none then
              { l with slot := some ⟨⟨i, t, p⟩, dir, orderedValue l.cfg.byteOrder (bs ++ [b]), l.cfg.w⟩ }
            else flagged 0x001 l) with
            pointers := l.pointers.map fun e => if e.1 = t then
              (e.1, if e.2.toNat + 1 = 2 ^ (8 * l.cfg.a) then 0 else e.2 + 1) else e })

/-- A start condition opens a frame from SEEKING and IDLE, a repeated start ends the transfer and opens the next one with the
frame's ten-bit target kept, and a stop closes the frame and completes it; a repeated start or a stop inside a byte sets
BUS-ERROR, and one inside a register PARTIAL-REGISTER (R39, R41, R42, R54, R55). On a four-wire lane in IDLE the activation of one
select opens a frame on its target, armed at the idle clock level, and of more than one a CONTENDED frame; a second activation
sets CONTENTION. The release of the frame's select closes the frame: inside a latency or data byte with FRAMING, inside a register
with PARTIAL, otherwise with no flag. A CONTENDED frame closes, and a lane in SEEKING enters IDLE, at the release that leaves no
select active (R59, R60, R61, R67, R68, R69). -/
def Obligations.FramesOpenAndClose : Prop :=
  ∀ (i : Fin 4) (l : Lane) (lv lv' : Levels),
    (l.cfg.kind = .twoWire → lv l.cfg.pins.twoClock = true → lv' l.cfg.pins.twoClock = true →
      (lv l.cfg.pins.twoData = true → lv' l.cfg.pins.twoData = false → l.state = .seeking ∨ l.state = .idle →
        laneChange i lv lv' l = ⟨{ l with state := .inFrame, two := ⟨[], none, .address, none⟩ }, false⟩)
      ∧ (lv l.cfg.pins.twoData = true → lv' l.cfg.pins.twoData = false → l.state = .inFrame →
        (∀ t dir, l.two.phase = .data t dir [] → l.two.bits = [] →
          laneChange i lv lv' l = ⟨{ l with two := ⟨[], none, .address, l.two.frameTarget⟩ }, false⟩)
        ∧ (∀ t dir b bs, (l.two.phase = .data t dir (b :: bs) ∨ l.two.phase = .ignore (some (b :: bs))) →
          l.two.bits = [] →
          laneChange i lv lv' l =
            ⟨flagged 0x002 { l with two := ⟨[], none, .address, l.two.frameTarget⟩ }, false⟩)
        ∧ (∀ t dir bytes b bs, l.two.phase = .data t dir bytes → l.two.bits = b :: bs →
          laneChange i lv lv' l =
            ⟨flagged 0x004 { l with two := ⟨[], none, .address, l.two.frameTarget⟩ }, false⟩))
      ∧ (lv l.cfg.pins.twoData = false → lv' l.cfg.pins.twoData = true → l.state = .inFrame →
        (∀ t dir, l.two.phase = .data t dir [] → l.two.bits = [] →
          laneChange i lv lv' l = ⟨{ l with state := .idle, two := ⟨[], none, .address, none⟩ }, true⟩)
        ∧ (∀ t dir b bs, l.two.phase = .data t dir (b :: bs) → l.two.bits = [] →
          laneChange i lv lv' l = ⟨{ l with
            state := .idle, two := ⟨[], none, .address, none⟩
            flags := l.flags ||| 0x002, notes := l.notes &&& ~~~0x002 }, true⟩)
        ∧ (∀ t dir bytes b bs, l.two.phase = .data t dir bytes → l.two.bits = b :: bs →
          laneChange i lv lv' l = ⟨{ l with
            state := .idle, two := ⟨[], none, .address, none⟩
            flags := l.flags ||| 0x004, notes := l.notes &&& ~~~0x004 }, true⟩)))
    ∧ (∀ sel : Fin 4, l.cfg.kind = .fourWire → sel.val < l.cfg.selectCount →
      (l.state = .idle → (∀ n : Fin 4, n.val < l.cfg.selectCount →
          lv (l.cfg.pins.sel[n]) = true ∧ (lv' (l.cfg.pins.sel[n]) = false ↔ n = sel)) →
        laneChange i lv lv' l = ⟨{ l with
          state := .inFrame
          four := ⟨decide (lv' l.cfg.pins.fourClock = idleLevel l.cfg.clockMode), [], [], sel, .command []⟩ }, false⟩)
      ∧ (∀ a bytes, l.state = .inFrame → l.four.phase = .data a bytes → l.four.target = sel →
          lv l.cfg.pins.fourClock = lv' l.cfg.pins.fourClock →
          lv' l.cfg.pins.fourClock ≠ idleLevel l.cfg.clockMode →
        (∀ n : Fin 4, n.val < l.cfg.selectCount → n ≠ sel → lv (l.cfg.pins.sel[n]) = true) →
        lv (l.cfg.pins.sel[sel]) = false →
        (l.four.cBits ≠ [] → lv' (l.cfg.pins.sel[sel]) = true →
            (∀ n : Fin 4, n.val < l.cfg.selectCount → n ≠ sel → lv' (l.cfg.pins.sel[n]) = true) →
          laneChange i lv lv' l = ⟨{ l with
            state := .idle, four := ⟨false, [], [], 0, .command []⟩
            flags := l.flags ||| 0x020, notes := l.notes &&& ~~~0x020 }, true⟩)
        ∧ (∀ other : Fin 4, other.val < l.cfg.selectCount → other ≠ sel → lv' (l.cfg.pins.sel[other]) = false →
            lv' (l.cfg.pins.sel[sel]) = false →
          laneChange i lv lv' l = ⟨{ l with
            state := .inFrame, four := ⟨l.four.armed, [], [], sel, .contended⟩
            flags := l.flags ||| 0x040, notes := l.notes &&& ~~~0x040 }, false⟩)))
    ∧ (l.cfg.kind = .fourWire →
      (∀ a b : Fin 4, l.state = .idle → (∀ n : Fin 4, n.val < l.cfg.selectCount → lv (l.cfg.pins.sel[n]) = true) →
        a ≠ b → a.val < l.cfg.selectCount → b.val < l.cfg.selectCount →
        lv' (l.cfg.pins.sel[a]) = false → lv' (l.cfg.pins.sel[b]) = false →
        laneChange i lv lv' l = ⟨{ flagged 0x040 l with
          state := .inFrame
          four := ⟨decide (lv' l.cfg.pins.fourClock = idleLevel l.cfg.clockMode), [], [], l.four.target,
            .contended⟩ }, false⟩)
      ∧ ((∃ n : Fin 4, n.val < l.cfg.selectCount ∧ lv (l.cfg.pins.sel[n]) = false) →
        (∀ n : Fin 4, n.val < l.cfg.selectCount → lv' (l.cfg.pins.sel[n]) = true) →
        (l.state = .seeking → laneChange i lv lv' l = ⟨{ l with state := .idle }, false⟩)
        ∧ (l.state = .inFrame → l.four.phase = .contended →
          laneChange i lv lv' l = ⟨{ l with state := .idle, four := ⟨false, [], [], 0, .command []⟩ }, true⟩)
        ∧ (l.state = .inFrame → l.four.phase ≠ .contended → l.four.target.val < l.cfg.selectCount →
          lv (l.cfg.pins.sel[l.four.target]) = false → lv l.cfg.pins.fourClock = lv' l.cfg.pins.fourClock →
          laneChange i lv lv' l = ⟨closedFour l, true⟩))
      ∧ ((∃ n : Fin 4, n.val < l.cfg.selectCount ∧ lv (l.cfg.pins.sel[n]) = false ∧ lv' (l.cfg.pins.sel[n]) = false) →
        (l.state = .seeking → laneChange i lv lv' l = ⟨l, false⟩)
        ∧ (l.state = .inFrame → l.four.phase = .contended → l.four.armed = true → laneChange i lv lv' l = ⟨l, false⟩)))

/-- A four-wire frame under every setting of its lane: A command bytes, then, for a READ, the latency bytes, then the W bytes of
a register, each in the lane's bit order, the command and a WRITE taken from CDAT and a READ from TDAT. The command's top bit
gives the direction under the polarity, its next bit the increment under FLAG, and the rest the register; the register is
posted for the frame's select as target, in the lane's byte order, and steps within its range under ALWAYS, or FLAG with the
increment bit; a slot that is full loses the posting with OVERRUN (R24, R25, R26, R58, R62 to R66). The frame takes a bit at each
sampling edge of its clock mode while it is armed, CDAT and TDAT as they stood before the change; it becomes armed at the idle
level, and a sampling edge that comes with the release of its select is its last bit, before another select opens the next frame
(R57, R58, R59, R67). -/
def Obligations.FourWireFramePosts : Prop :=
  (∀ (i : Fin 4) (l sampled armed : Lane) (lv lv' : Levels) (idle rising : Bool),
    l.cfg.kind = .fourWire → l.state = .inFrame → l.four.phase ≠ .contended → l.four.target.val < l.cfg.selectCount →
    (∀ n : Fin 4, n.val < l.cfg.selectCount → (lv (l.cfg.pins.sel[n]) = false ↔ n = l.four.target)) →
    (l.cfg.clockMode, idle, rising) ∈ [(0, false, true), (1, false, false), (2, true, false), (3, true, true)] →
    sampled = (if l.four.armed = true ∧ lv l.cfg.pins.fourClock ≠ lv' l.cfg.pins.fourClock
        ∧ lv' l.cfg.pins.fourClock = rising then
      l.fourBit i (lv l.cfg.pins.cdat) (lv l.cfg.pins.tdat) else l) →
    armed = (if lv' l.cfg.pins.fourClock = idle then { sampled with four := { sampled.four with armed := true } }
      else sampled) →
    ((∀ n : Fin 4, n.val < l.cfg.selectCount → lv' (l.cfg.pins.sel[n]) = lv (l.cfg.pins.sel[n])) →
      laneChange i lv lv' l = ⟨armed, false⟩)
    ∧ ((∀ n : Fin 4, n.val < l.cfg.selectCount → lv' (l.cfg.pins.sel[n]) = true) →
      laneChange i lv lv' l = ⟨closedFour armed, true⟩)
    ∧ ∀ next : Fin 4, next.val < l.cfg.selectCount → next ≠ l.four.target →
      (∀ n : Fin 4, n.val < l.cfg.selectCount → (lv' (l.cfg.pins.sel[n]) = false ↔ n = next)) →
      laneChange i lv lv' l = ⟨{ closedFour armed with
        state := .inFrame, four := ⟨decide (lv' l.cfg.pins.fourClock = idle), [], [], next, .command []⟩ }, true⟩)
  ∧ ∀ (i : Fin 4) (l : Lane) (target : Fin 4) (commands latency register : List (Byte × Byte)) (v range : Nat) (dir : Dir)
    (step inc : Bool),
    l.state = .inFrame → l.four = ⟨true, [], [], target, .command []⟩ →
    commands.length = l.cfg.a → (l.cfg.a = 1 ∨ l.cfg.a = 2) →
    register.length = l.cfg.w → (l.cfg.w = 1 ∨ l.cfg.w = 2 ∨ l.cfg.w = 4) →
    v = commands.foldl (fun n c => 256 * n + c.1.toNat) 0 →
    dir = (if v.testBit (8 * l.cfg.a - 1) = (match l.cfg.polarity with
      | .readIsOne => true
      | .readIsZero => false) then .read else .write) →
    inc = (l.cfg.autoinc = .flag && v.testBit (8 * l.cfg.a - 2)) →
    step = (l.cfg.autoinc = .always || inc) →
    range = (if l.cfg.autoinc = .flag then 2 ^ (8 * l.cfg.a - 2) else 2 ^ (8 * l.cfg.a - 1)) →
    latency.length = (if dir = .read then l.cfg.latency else 0) →
    ((commands ++ latency ++ register).flatMap fun x =>
        (busBits l.cfg.bitOrder x.1).zip (busBits l.cfg.bitOrder x.2)).foldl (fun l x => l.fourBit i x.1 x.2) l =
      { (if l.slot = none then
          { l with slot := some ⟨⟨i, BitVec.ofNat 10 target.val, BitVec.ofNat 16 (v % range)⟩, dir,
            orderedValue l.cfg.byteOrder (register.map fun x => if dir = .read then x.2 else x.1), l.cfg.w⟩ }
        else flagged 0x001 l) with
        four := ⟨true, [], [], target, .data
          ⟨dir, inc, BitVec.ofNat 16 (if step then (v % range + 1) % range else v % range)⟩ []⟩ }

/-- A management lane takes the data level held before each rising clock edge as a bit (R72). In SEEKING ones are counted, up
to 32, a 0 starts afresh, and the required run (the minimum preamble, or 1) leads to IDLE; there a 0 after that run is the start
mark, a 0 before it, or after the mark, leads back to SEEKING, and a 1 after the mark opens the frame (R73, R74, R75). From the
start pattern on, the operation, the device, the register, the turnaround and sixteen data bits post the device's register, the
two bytes in the lane's byte order, and close the frame; a full slot loses the posting with OVERRUN; operation bits that agree
set UNSUPPORTED, and a READ whose second turnaround bit is 1 sets NO-RESPONSE, each resynchronising the lane (R24, R75 to R80). -/
def Obligations.ManagementFramePosts : Prop :=
  (∀ (i : Fin 4) (l : Lane) (lv lv' : Levels), l.cfg.kind = .management → l.state ≠ .off →
    laneChange i lv lv' l = if lv l.cfg.pins.mgmtClock = false ∧ lv' l.cfg.pins.mgmtClock = true then
      l.mgmtBit i (lv l.cfg.pins.mgmtData) else ⟨l, false⟩)
  ∧ (∀ (i : Fin 4) (l lost : Lane) (required longer : Nat),
    required = (if l.cfg.preamble = 0 then 1 else l.cfg.preamble) → longer = min 32 (l.mgmt.run + 1) →
    lost = { l with state := .seeking, mgmt := ⟨0, false, .operation []⟩ } →
    (l.state = .seeking →
      l.mgmtBit i true = ⟨{ l with
        state := if required ≤ longer then .idle else .seeking, mgmt := { l.mgmt with run := longer } }, false⟩
      ∧ l.mgmtBit i false = ⟨{ l with mgmt := { l.mgmt with run := 0 } }, false⟩)
    ∧ (l.state = .idle → l.mgmt.startMark = false →
      l.mgmtBit i true = ⟨{ l with mgmt := { l.mgmt with run := longer } }, false⟩
      ∧ l.mgmtBit i false =
        ⟨if required ≤ l.mgmt.run then { l with mgmt := { l.mgmt with startMark := true } } else lost, false⟩)
    ∧ (l.state = .idle → l.mgmt.startMark = true →
      l.mgmtBit i true = ⟨{ l with state := .inFrame, mgmt := ⟨0, false, .operation []⟩ }, false⟩
      ∧ l.mgmtBit i false = ⟨lost, false⟩))
  ∧ ∀ (i : Fin 4) (l : Lane) (dir : Dir) (device register : BitVec 5) (value : BitVec 16) (t0 t1 : Bool) (bits : List Bool),
    l.state = .idle → l.mgmt.startMark = true →
    bits = [true] ++ (match dir with
        | .read => [true, false]
        | .write => [false, true])
      ++ (List.range 5).map (fun n => device.getLsbD (4 - n)) ++ (List.range 5).map (fun n => register.getLsbD (4 - n))
      ++ [t0, t1] →
    (dir = .write ∨ t1 = false →
        (bits ++ (List.range 16).map fun n => value.getLsbD (15 - n)).foldl (fun l b => (l.mgmtBit i b).lane) l =
          { (if l.slot = none then
              { l with slot := some ⟨⟨i, device.setWidth 10, register.setWidth 16⟩, dir,
                orderedValue l.cfg.byteOrder [value.extractLsb' 8 8, value.extractLsb' 0 8], 2⟩ }
            else flagged 0x001 l) with
            mgmt := ⟨0, false, .operation []⟩ })
      ∧ (dir = .read → t1 = true → bits.foldl (fun l b => (l.mgmtBit i b).lane) l =
        { l with
          state := .seeking, mgmt := ⟨0, false, .operation []⟩
          flags := l.flags ||| 0x080, notes := l.notes &&& ~~~0x080 })
      ∧ [true, t0, t0].foldl (fun l b => (l.mgmtBit i b).lane) l =
        { l with
          state := .seeking, mgmt := ⟨0, false, .operation []⟩
          flags := l.flags ||| 0x100, notes := l.notes &&& ~~~0x100 }

/-! ## Invariants of every step -/

/-- Every step keeps the register table a map of at most 1024 records in key order, and the bindings of watch slots and records
agreeing at both ends (R85, R118). -/
def Obligations.TableAndBindingsHold : Prop :=
  ∀ s t : State, TableLaw s → BindingLaw s → step s = .next t → TableLaw t ∧ BindingLaw t

/-- Every step keeps the epoch counter at most 2^32 - 1 and the records in their ranges: heat and change count at most 65535,
epochs at or before the present one, a held part only under hold, mismatched only with an expectation (R84, R86, R88, R98,
R102, R111). -/
def Obligations.RecordsHold : Prop :=
  ∀ s t : State, RecordLaw s → step s = .next t → RecordLaw t

/-- Every step keeps the first-refused capture present exactly while ADMIT is set (R94, R134), and the flash in its
canonical form. The canonical form of the flash is the model's (log 7). -/
def Obligations.CaptureAndFlashHold : Prop :=
  ∀ s t : State, CaptureLaw s → FlashLaw s → step s = .next t → CaptureLaw t ∧ FlashLaw t

/-- Every step keeps the power chain and the panel in step: sleep entry in DARK, wake in SLEEP, at most the one timer of the
power state, the panel ON only in RUN and DIM with its refresh timer at the state's period, and a refresh only while it is ON
(R147, R154, R159, R162, R166). A part whose reset is held is in RUN with no operation, no timer and no deferred expiry (R171;
that a reset is held until its release is the model's, log 24). -/
def Obligations.PowerAndPanelHold : Prop :=
  ∀ s t : State, PowerLaw s → PanelLaw s → step s = .next t → PowerLaw t ∧ PanelLaw t

/-- Every step keeps the lanes and the widths of their records lawful: OFF exactly while disabled or of kind NONE, an OFF
lane's slot empty, at most eight pointers, a posting of the lane's own at its W, and every record at its lane's W unless the
lane's retirement still waits (R18, R22, R23, R33, R47, R84). -/
def Obligations.LanesAndWidthsHold : Prop :=
  ∀ s t : State, TableLaw s → LanesLaw s → WidthLaw s → step s = .next t → LanesLaw t ∧ WidthLaw t

/-- Every step keeps every setting in its range (R1, R9, R18, R146, R156, R168). -/
def Obligations.SettingsHold : Prop :=
  ∀ s t : State, SettingsLaw s → step s = .next t → SettingsLaw t

/-- Every step keeps the link closed while LSEL is high or a reset is held: no transaction, LDO not driven, and every
waiting command cut from its transaction (R172, R173, R177, R185). That a reset is held until its release is the
model's choice (log 24), and so is that LDO is not driven then with LSEL low, which R172 and R173 do not settle (log 23). -/
def Obligations.LinkHolds : Prop :=
  ∀ s t : State, LinkLaw s → step s = .next t → LinkLaw t
end

