-- ==== Sys2Proof/Laws/Flash.lean ====
section
/-! SUPPORT. The private flash: every operation keeps the canonical form, and a byte reads as last written (R186). -/

namespace Sys2Proof.Machine

/-- The canonical form as a proposition. -/
theorem Flash.wf_iff (m : Flash) :
    m.wf = true ↔ (∀ c ∈ m, c.2 ≠ Flash.unlisted) ∧ (m.map (·.1)).Pairwise (· < ·) := by
  simp [Flash.wf]

theorem Flash.wf_nil : Flash.wf [] = true := by decide

theorem State.reset_flash_wf : State.reset.pim.flash.wf = true := by decide

/-- A flash with cells left out keeps the form. -/
theorem Flash.wf_filter {m : Flash} (p : Host.Cell → Bool) (h : m.wf = true) : Flash.wf (m.filter p) = true := by
  rw [Flash.wf_iff] at h ⊢
  refine ⟨fun c hc => h.1 c (List.mem_filter.1 hc).1, ?_⟩
  exact h.2.sublist (List.filter_sublist.map _)

theorem Flash.wf_drop {m : Flash} (a : Nat) (h : m.wf = true) : (m.drop a).wf = true :=
  Flash.wf_filter _ h

theorem Flash.wf_eraseRange {m : Flash} (lo hi : Nat) (h : m.wf = true) : (m.eraseRange lo hi).wf = true :=
  Flash.wf_filter _ h

theorem Flash.mem_place {c x : Host.Cell} {m : Flash} : x ∈ Flash.place c m ↔ x = c ∨ x ∈ m := by
  induction m with
  | nil => simp [Flash.place]
  | cons y ys ih =>
    simp only [Flash.place]
    split
    · simp
    · simp only [List.mem_cons, ih]
      tauto

theorem Flash.place_rising {c : Host.Cell} {m : Flash} (h : (m.map (·.1)).Pairwise (· < ·)) (hc : ∀ x ∈ m, x.1 ≠ c.1) :
    ((Flash.place c m).map (·.1)).Pairwise (· < ·) := by
  induction m with
  | nil => simp [Flash.place]
  | cons y ys ih =>
    simp only [List.map_cons, List.pairwise_cons] at h
    simp only [Flash.place]
    split
    · next hlt =>
      simp only [List.map_cons, List.pairwise_cons]
      refine ⟨?_, h⟩
      intro a ha
      rcases List.mem_cons.1 ha with rfl | ha
      · exact hlt
      · exact hlt.trans (h.1 a ha)
    · next hlt =>
      simp only [List.map_cons, List.pairwise_cons]
      refine ⟨?_, ih h.2 fun x hx => hc x (List.mem_cons_of_mem _ hx)⟩
      intro a ha
      obtain ⟨x, hx, rfl⟩ := List.mem_map.1 ha
      rcases Flash.mem_place.1 hx with rfl | hx
      · have := hc y List.mem_cons_self
        omega
      · exact h.1 _ (List.mem_map_of_mem hx)

theorem Flash.wf_place {c : Host.Cell} {m : Flash} (h : m.wf = true) (hb : c.2 ≠ Flash.unlisted)
    (hc : ∀ x ∈ m, x.1 ≠ c.1) : (Flash.place c m).wf = true := by
  rw [Flash.wf_iff] at h ⊢
  refine ⟨?_, Flash.place_rising h.2 hc⟩
  intro x hx
  rcases Flash.mem_place.1 hx with rfl | hx
  · exact hb
  · exact h.1 x hx

theorem Flash.wf_write {m : Flash} (a : Nat) (b : Byte) (h : m.wf = true) : (m.write a b).wf = true := by
  unfold Flash.write
  split
  · exact Flash.wf_drop a h
  · next hb =>
    refine Flash.wf_place (Flash.wf_drop a h) hb ?_
    intro x hx
    simpa using (List.mem_filter.1 hx).2

theorem Flash.wf_writeAll {m : Flash} (a : Nat) (bs : List Byte) (h : m.wf = true) : (m.writeAll a bs).wf = true := by
  induction bs generalizing m a with
  | nil => exact h
  | cons b bs ih => exact ih _ (Flash.wf_write a b h)

theorem Flash.wf_programImage {m : Flash} (image : List Byte) (h : m.wf = true) : (m.programImage image).wf = true :=
  Flash.wf_writeAll _ _ (Flash.wf_writeAll _ _ h)

theorem Flash.wf_withDefects {m : Flash} (length : Nat) (ds : List Host.Cell) (h : m.wf = true) :
    (m.withDefects length ds).wf = true := by
  unfold Flash.withDefects
  induction ds.filter (fun d => programmed length d.1) generalizing m with
  | nil => exact h
  | cons d ds ih => exact ih (Flash.wf_write d.1 d.2 h)

/-! ### Reading what was written -/

theorem Flash.read_filter {m : Flash} (p : Host.Cell → Bool) (a : Nat) (h : ∀ c, c.1 = a → p c = true) :
    Flash.read (m.filter p) a = m.read a := by
  unfold Flash.read
  congr 2
  rw [List.find?_filter]
  congr 1
  funext c
  by_cases hc : c.1 = a <;> simp [hc, h]

theorem Flash.read_drop_self (m : Flash) (a : Nat) : (m.drop a).read a = Flash.unlisted := by
  unfold Flash.read Flash.drop
  rw [List.find?_eq_none.2]
  · rfl
  · intro c hc
    simpa using (List.mem_filter.1 hc).2

theorem Flash.read_drop_other (m : Flash) {a b : Nat} (h : b ≠ a) : (m.drop a).read b = m.read b :=
  Flash.read_filter _ _ fun c hc => by simp [hc, h]

theorem Flash.read_place_self (m : Flash) (a : Nat) (b : Byte) (h : ∀ x ∈ m, x.1 ≠ a) :
    (Flash.place (a, b) m).read a = b := by
  induction m with
  | nil => simp [Flash.place, Flash.read]
  | cons y ys ih =>
    simp only [Flash.place]
    split
    · simp [Flash.read]
    · have hy := h y List.mem_cons_self
      have := ih fun x hx => h x (List.mem_cons_of_mem _ hx)
      simpa [Flash.read, hy] using this

theorem Flash.read_place_other (m : Flash) {a c : Nat} (b : Byte) (h : c ≠ a) :
    (Flash.place (a, b) m).read c = m.read c := by
  induction m with
  | nil => simp [Flash.place, Flash.read, h.symm]
  | cons y ys ih =>
    simp only [Flash.place]
    split
    · simp [Flash.read, h.symm]
    · by_cases hy : y.1 = c
      · simp [Flash.read, hy]
      · simpa [Flash.read, hy] using ih

/-- A byte reads as written, and a write leaves every other byte (R186). -/
theorem Flash.read_write (m : Flash) (a c : Nat) (b : Byte) :
    (m.write a b).read c = if c = a then b else m.read c := by
  unfold Flash.write
  split_ifs with hb hc hc
  · rw [hc, Flash.read_drop_self, hb]
  · exact Flash.read_drop_other m hc
  · rw [hc]
    refine Flash.read_place_self _ _ _ ?_
    intro x hx
    simpa using (List.mem_filter.1 hx).2
  · rw [Flash.read_place_other _ _ hc, Flash.read_drop_other m hc]

/-- Bytes written from an offset read as written, and every other byte as before. -/
theorem Flash.read_writeAll (m : Flash) (a c : Nat) (bs : List Byte) :
    (m.writeAll a bs).read c = if a ≤ c ∧ c < a + bs.length then bs.getD (c - a) 0 else m.read c := by
  induction bs generalizing m a with
  | nil =>
    simp only [Flash.writeAll, List.length_nil, Nat.add_zero]
    rw [if_neg (by omega)]
  | cons b bs ih =>
    simp only [Flash.writeAll, ih, Flash.read_write, List.length_cons]
    by_cases h1 : c = a
    · subst h1
      simp
    · by_cases h2 : a + 1 ≤ c ∧ c < a + 1 + bs.length
      · have e : c - a = c - (a + 1) + 1 := by omega
        rw [if_pos h2, if_pos (by omega), e]
        simp
      · rw [if_neg h2, if_neg h1, if_neg (by omega)]

/-- An erased range reads 0xFF, and every other byte as before (R186). -/
theorem Flash.read_eraseRange (m : Flash) (lo hi c : Nat) :
    (m.eraseRange lo hi).read c = if lo ≤ c ∧ c ≤ hi then Flash.unlisted else m.read c := by
  split_ifs with h
  · unfold Flash.read Flash.eraseRange
    rw [List.find?_eq_none.2]
    · rfl
    · intro x hx
      have := (List.mem_filter.1 hx).2
      simp only [decide_eq_true_eq] at this
      simp only [decide_eq_true_eq]
      rintro rfl
      exact this h
  · exact Flash.read_filter _ _ fun x hx => by
      subst hx
      exact decide_eq_true h

end Sys2Proof.Machine
end

