-- ==== Sys2Proof/Laws/State.lean ====
section
/-! SUPPORT. The fields of the part after each block update: what was written, and every other field as it was. -/

namespace Sys2Proof.Machine

variable (s : State)

/-! ### `setPfe` -/

@[simp] theorem State.setPfe_pfe (x : Pfe) : (s.setPfe x).pfe = x := rfl
@[simp] theorem State.setPfe_lanes (x : Pfe) : (s.setPfe x).lanes = s.lanes := rfl
@[simp] theorem State.setPfe_rte (x : Pfe) : (s.setPfe x).rte = s.rte := rfl
@[simp] theorem State.setPfe_wta (x : Pfe) : (s.setPfe x).wta = s.wta := rfl
@[simp] theorem State.setPfe_dse (x : Pfe) : (s.setPfe x).dse = s.dse := rfl
@[simp] theorem State.setPfe_pwu (x : Pfe) : (s.setPfe x).pwu = s.pwu := rfl
@[simp] theorem State.setPfe_ctl (x : Pfe) : (s.setPfe x).ctl = s.ctl := rfl
@[simp] theorem State.setPfe_pim (x : Pfe) : (s.setPfe x).pim = s.pim := rfl
@[simp] theorem State.setPfe_inReset (x : Pfe) : (s.setPfe x).inReset = s.inReset := rfl
@[simp] theorem State.setPfe_pending (x : Pfe) : (s.setPfe x).pending = s.pending := rfl
@[simp] theorem State.setPfe_setPfe (x y : Pfe) : (s.setPfe x).setPfe y = s.setPfe y := rfl
@[simp] theorem State.setPfe_self : s.setPfe s.pfe = s := rfl

/-! ### `setLanes` -/

@[simp] theorem State.setLanes_pfe (x : Vector Lane 4) : (s.setLanes x).pfe = s.pfe := rfl
@[simp] theorem State.setLanes_lanes (x : Vector Lane 4) : (s.setLanes x).lanes = x := rfl
@[simp] theorem State.setLanes_rte (x : Vector Lane 4) : (s.setLanes x).rte = s.rte := rfl
@[simp] theorem State.setLanes_wta (x : Vector Lane 4) : (s.setLanes x).wta = s.wta := rfl
@[simp] theorem State.setLanes_dse (x : Vector Lane 4) : (s.setLanes x).dse = s.dse := rfl
@[simp] theorem State.setLanes_pwu (x : Vector Lane 4) : (s.setLanes x).pwu = s.pwu := rfl
@[simp] theorem State.setLanes_ctl (x : Vector Lane 4) : (s.setLanes x).ctl = s.ctl := rfl
@[simp] theorem State.setLanes_pim (x : Vector Lane 4) : (s.setLanes x).pim = s.pim := rfl
@[simp] theorem State.setLanes_inReset (x : Vector Lane 4) : (s.setLanes x).inReset = s.inReset := rfl
@[simp] theorem State.setLanes_pending (x : Vector Lane 4) : (s.setLanes x).pending = s.pending := rfl
@[simp] theorem State.setLanes_setLanes (x y : Vector Lane 4) : (s.setLanes x).setLanes y = s.setLanes y := rfl
@[simp] theorem State.setLanes_self : s.setLanes s.lanes = s := rfl

/-! ### `setRte` -/

@[simp] theorem State.setRte_pfe (x : Rte) : (s.setRte x).pfe = s.pfe := rfl
@[simp] theorem State.setRte_lanes (x : Rte) : (s.setRte x).lanes = s.lanes := rfl
@[simp] theorem State.setRte_rte (x : Rte) : (s.setRte x).rte = x := rfl
@[simp] theorem State.setRte_wta (x : Rte) : (s.setRte x).wta = s.wta := rfl
@[simp] theorem State.setRte_dse (x : Rte) : (s.setRte x).dse = s.dse := rfl
@[simp] theorem State.setRte_pwu (x : Rte) : (s.setRte x).pwu = s.pwu := rfl
@[simp] theorem State.setRte_ctl (x : Rte) : (s.setRte x).ctl = s.ctl := rfl
@[simp] theorem State.setRte_pim (x : Rte) : (s.setRte x).pim = s.pim := rfl
@[simp] theorem State.setRte_inReset (x : Rte) : (s.setRte x).inReset = s.inReset := rfl
@[simp] theorem State.setRte_pending (x : Rte) : (s.setRte x).pending = s.pending := rfl
@[simp] theorem State.setRte_setRte (x y : Rte) : (s.setRte x).setRte y = s.setRte y := rfl
@[simp] theorem State.setRte_self : s.setRte s.rte = s := rfl

/-! ### `setWta` -/

@[simp] theorem State.setWta_pfe (x : Wta) : (s.setWta x).pfe = s.pfe := rfl
@[simp] theorem State.setWta_lanes (x : Wta) : (s.setWta x).lanes = s.lanes := rfl
@[simp] theorem State.setWta_rte (x : Wta) : (s.setWta x).rte = s.rte := rfl
@[simp] theorem State.setWta_wta (x : Wta) : (s.setWta x).wta = x := rfl
@[simp] theorem State.setWta_dse (x : Wta) : (s.setWta x).dse = s.dse := rfl
@[simp] theorem State.setWta_pwu (x : Wta) : (s.setWta x).pwu = s.pwu := rfl
@[simp] theorem State.setWta_ctl (x : Wta) : (s.setWta x).ctl = s.ctl := rfl
@[simp] theorem State.setWta_pim (x : Wta) : (s.setWta x).pim = s.pim := rfl
@[simp] theorem State.setWta_inReset (x : Wta) : (s.setWta x).inReset = s.inReset := rfl
@[simp] theorem State.setWta_pending (x : Wta) : (s.setWta x).pending = s.pending := rfl
@[simp] theorem State.setWta_setWta (x y : Wta) : (s.setWta x).setWta y = s.setWta y := rfl
@[simp] theorem State.setWta_self : s.setWta s.wta = s := rfl

/-! ### `setDse` -/

@[simp] theorem State.setDse_pfe (x : Dse) : (s.setDse x).pfe = s.pfe := rfl
@[simp] theorem State.setDse_lanes (x : Dse) : (s.setDse x).lanes = s.lanes := rfl
@[simp] theorem State.setDse_rte (x : Dse) : (s.setDse x).rte = s.rte := rfl
@[simp] theorem State.setDse_wta (x : Dse) : (s.setDse x).wta = s.wta := rfl
@[simp] theorem State.setDse_dse (x : Dse) : (s.setDse x).dse = x := rfl
@[simp] theorem State.setDse_pwu (x : Dse) : (s.setDse x).pwu = s.pwu := rfl
@[simp] theorem State.setDse_ctl (x : Dse) : (s.setDse x).ctl = s.ctl := rfl
@[simp] theorem State.setDse_pim (x : Dse) : (s.setDse x).pim = s.pim := rfl
@[simp] theorem State.setDse_inReset (x : Dse) : (s.setDse x).inReset = s.inReset := rfl
@[simp] theorem State.setDse_pending (x : Dse) : (s.setDse x).pending = s.pending := rfl
@[simp] theorem State.setDse_setDse (x y : Dse) : (s.setDse x).setDse y = s.setDse y := rfl
@[simp] theorem State.setDse_self : s.setDse s.dse = s := rfl

/-! ### `setPwu` -/

@[simp] theorem State.setPwu_pfe (x : Pwu) : (s.setPwu x).pfe = s.pfe := rfl
@[simp] theorem State.setPwu_lanes (x : Pwu) : (s.setPwu x).lanes = s.lanes := rfl
@[simp] theorem State.setPwu_rte (x : Pwu) : (s.setPwu x).rte = s.rte := rfl
@[simp] theorem State.setPwu_wta (x : Pwu) : (s.setPwu x).wta = s.wta := rfl
@[simp] theorem State.setPwu_dse (x : Pwu) : (s.setPwu x).dse = s.dse := rfl
@[simp] theorem State.setPwu_pwu (x : Pwu) : (s.setPwu x).pwu = x := rfl
@[simp] theorem State.setPwu_ctl (x : Pwu) : (s.setPwu x).ctl = s.ctl := rfl
@[simp] theorem State.setPwu_pim (x : Pwu) : (s.setPwu x).pim = s.pim := rfl
@[simp] theorem State.setPwu_inReset (x : Pwu) : (s.setPwu x).inReset = s.inReset := rfl
@[simp] theorem State.setPwu_pending (x : Pwu) : (s.setPwu x).pending = s.pending := rfl
@[simp] theorem State.setPwu_setPwu (x y : Pwu) : (s.setPwu x).setPwu y = s.setPwu y := rfl
@[simp] theorem State.setPwu_self : s.setPwu s.pwu = s := rfl

/-! ### `setCtl` -/

@[simp] theorem State.setCtl_pfe (x : Ctl) : (s.setCtl x).pfe = s.pfe := rfl
@[simp] theorem State.setCtl_lanes (x : Ctl) : (s.setCtl x).lanes = s.lanes := rfl
@[simp] theorem State.setCtl_rte (x : Ctl) : (s.setCtl x).rte = s.rte := rfl
@[simp] theorem State.setCtl_wta (x : Ctl) : (s.setCtl x).wta = s.wta := rfl
@[simp] theorem State.setCtl_dse (x : Ctl) : (s.setCtl x).dse = s.dse := rfl
@[simp] theorem State.setCtl_pwu (x : Ctl) : (s.setCtl x).pwu = s.pwu := rfl
@[simp] theorem State.setCtl_ctl (x : Ctl) : (s.setCtl x).ctl = x := rfl
@[simp] theorem State.setCtl_pim (x : Ctl) : (s.setCtl x).pim = s.pim := rfl
@[simp] theorem State.setCtl_inReset (x : Ctl) : (s.setCtl x).inReset = s.inReset := rfl
@[simp] theorem State.setCtl_pending (x : Ctl) : (s.setCtl x).pending = s.pending := rfl
@[simp] theorem State.setCtl_setCtl (x y : Ctl) : (s.setCtl x).setCtl y = s.setCtl y := rfl
@[simp] theorem State.setCtl_self : s.setCtl s.ctl = s := rfl

/-! ### `setPim` -/

@[simp] theorem State.setPim_pfe (x : Pim) : (s.setPim x).pfe = s.pfe := rfl
@[simp] theorem State.setPim_lanes (x : Pim) : (s.setPim x).lanes = s.lanes := rfl
@[simp] theorem State.setPim_rte (x : Pim) : (s.setPim x).rte = s.rte := rfl
@[simp] theorem State.setPim_wta (x : Pim) : (s.setPim x).wta = s.wta := rfl
@[simp] theorem State.setPim_dse (x : Pim) : (s.setPim x).dse = s.dse := rfl
@[simp] theorem State.setPim_pwu (x : Pim) : (s.setPim x).pwu = s.pwu := rfl
@[simp] theorem State.setPim_ctl (x : Pim) : (s.setPim x).ctl = s.ctl := rfl
@[simp] theorem State.setPim_pim (x : Pim) : (s.setPim x).pim = x := rfl
@[simp] theorem State.setPim_inReset (x : Pim) : (s.setPim x).inReset = s.inReset := rfl
@[simp] theorem State.setPim_pending (x : Pim) : (s.setPim x).pending = s.pending := rfl
@[simp] theorem State.setPim_setPim (x y : Pim) : (s.setPim x).setPim y = s.setPim y := rfl
@[simp] theorem State.setPim_self : s.setPim s.pim = s := rfl

/-! ### `setLane` -/

@[simp] theorem State.setLane_pfe (i : Fin 4) (x : Lane) : (s.setLane i x).pfe = s.pfe := rfl
@[simp] theorem State.setLane_lanes (i : Fin 4) (x : Lane) : (s.setLane i x).lanes = s.lanes.set i x := rfl
@[simp] theorem State.setLane_rte (i : Fin 4) (x : Lane) : (s.setLane i x).rte = s.rte := rfl
@[simp] theorem State.setLane_wta (i : Fin 4) (x : Lane) : (s.setLane i x).wta = s.wta := rfl
@[simp] theorem State.setLane_dse (i : Fin 4) (x : Lane) : (s.setLane i x).dse = s.dse := rfl
@[simp] theorem State.setLane_pwu (i : Fin 4) (x : Lane) : (s.setLane i x).pwu = s.pwu := rfl
@[simp] theorem State.setLane_ctl (i : Fin 4) (x : Lane) : (s.setLane i x).ctl = s.ctl := rfl
@[simp] theorem State.setLane_pim (i : Fin 4) (x : Lane) : (s.setLane i x).pim = s.pim := rfl
@[simp] theorem State.setLane_inReset (i : Fin 4) (x : Lane) : (s.setLane i x).inReset = s.inReset := rfl
@[simp] theorem State.setLane_pending (i : Fin 4) (x : Lane) : (s.setLane i x).pending = s.pending := rfl

/-! ### `withPending` -/

@[simp] theorem State.withPending_pfe (cs : List Instr) : (s.withPending cs).pfe = s.pfe := rfl
@[simp] theorem State.withPending_lanes (cs : List Instr) : (s.withPending cs).lanes = s.lanes := rfl
@[simp] theorem State.withPending_rte (cs : List Instr) : (s.withPending cs).rte = s.rte := rfl
@[simp] theorem State.withPending_wta (cs : List Instr) : (s.withPending cs).wta = s.wta := rfl
@[simp] theorem State.withPending_dse (cs : List Instr) : (s.withPending cs).dse = s.dse := rfl
@[simp] theorem State.withPending_pwu (cs : List Instr) : (s.withPending cs).pwu = s.pwu := rfl
@[simp] theorem State.withPending_ctl (cs : List Instr) : (s.withPending cs).ctl = s.ctl := rfl
@[simp] theorem State.withPending_pim (cs : List Instr) : (s.withPending cs).pim = s.pim := rfl
@[simp] theorem State.withPending_inReset (cs : List Instr) : (s.withPending cs).inReset = s.inReset := rfl
@[simp] theorem State.withPending_pending (cs : List Instr) : (s.withPending cs).pending = cs := rfl

end Sys2Proof.Machine
end

