-- ==== Sys2Proof/Laws/Link.lean ====
section
/-! SUPPORT. The taking of a command in one lemma per way it is answered, the service of a waiting one, and the byte cells (R172). -/

namespace Sys2Proof.Machine

/-! ### Frames -/

theorem operandLength_le (c : Cmd) : c.operandLength ≤ 27 := by
  cases c <;> decide

theorem ofOperands_len {ops : List Byte} (h : ops.length ≤ 64) : (Frame.ofOperands ops).len.toNat = ops.length := by
  simp only [Frame.ofOperands, BitVec.toNat_ofNat]
  omega

theorem ofOperands_wellFormed {ops : List Byte} (h : ops.length ≤ 64) : (Frame.ofOperands ops).wellFormed = true := by
  unfold Frame.wellFormed
  rw [ofOperands_len h, if_pos h]
  simp [Frame.ofOperands]

@[simp] theorem ofOperands_operands (ops : List Byte) : (Frame.ofOperands ops).operands = ops := rfl

theorem ofByte_code (c : Cmd) : Cmd.ofByte c.code = some c := by
  cases c <;> decide

/-! ### Taking -/

theorem commandTaken_opened {s : State} {byte : Byte} {f : Frame} (h : Opened s) (hf : f.wellFormed = true) :
    commandTaken byte f s
      = judge byte f false (s.setCtl { s.ctl with txn := Txn.ofFrame byte f, cell := some takingCell }) := by
  obtain ⟨_, hl, hp, ht, hc, _, hs⟩ := h
  simp [commandTaken, hl, hp, ht, hc, hf, Phase.receives, Ctl.received, Txn.empty, take, hs, takingCell, Cell.complete]

theorem takingActivity_run {s : State} (ho : s.pwu.op = .none) (hp : s.pwu.power = .run) :
    takingActivity s = s.setPwu (heard s) := by
  unfold takingActivity activityIf heard activity
  cases hk : s.pwu.linkActivity <;> simp [ho, hp, Pwu.toRun]

theorem abortSleepEntry_none {s : State} (ho : s.pwu.op = .none) : abortSleepEntry s = s := by
  simp [abortSleepEntry, ho]

theorem linkCheck_ready {c : Cmd} {f : Frame} {k : LinkState} (hk : k = .ready) (h : f.len.toNat = c.operandLength) :
    linkCheck c.code f k = .ok c := by
  simp [linkCheck, ofByte_code, hk, h]

/-- The part with the record of the transaction that takes a command. -/
def framed (c : Cmd) (ops : List Byte) (s : State) : State :=
  s.setCtl { s.ctl with txn := Txn.ofFrame c.code (Frame.ofOperands ops), cell := some takingCell }

/-- A command taken in RUN on a READY link goes to its owner after its activity event (R174). -/
theorem commandTaken_ready {c : Cmd} {ops : List Byte} {s : State} (h : Opened s) (hk : s.ctl.link = .ready)
    (hl : ops.length = c.operandLength) :
    commandTaken c.code (Frame.ofOperands ops) s
      = handOver c ops false (framed c ops s) := by
  have := operandLength_le c
  have hc := linkCheck_ready (c := c) (f := Frame.ofOperands ops) hk (by rw [ofOperands_len (by omega), hl])
  rw [commandTaken_opened h (ofOperands_wellFormed (by omega))]
  unfold judge
  rw [abortSleepEntry_none (by simpa using h.2.2.2.2.2.1)]
  simp only [State.setCtl_ctl]
  rw [hc]
  rfl

theorem handOver_run {c : Cmd} {ops : List Byte} {s : State} (ho : s.pwu.op = .none) (hp : s.pwu.power = .run)
    (h1 : c ≠ .laneSet) (h2 : c ≠ .laneEnable) (h3 : c ≠ .powerSet) :
    handOver c ops false s = toOwner c ops false (s.setPwu (heard s)) := by
  rw [← takingActivity_run ho hp]
  cases c <;> first | contradiction | rfl

/-! ### Queues -/

theorem find?_none_of_owner {o : Owner} {ws : List Waiting} (h : ∀ w ∈ ws, ownerOf w.cmd w.operands ≠ o) :
    ws.find? (fun w => decide (ownerOf w.cmd w.operands = o)) = none := by
  simpa [List.find?_eq_none] using h

theorem erase_append_last {w : Waiting} {ws : List Waiting} (h : w ∉ ws) : (ws ++ [w]).erase w = ws := by
  simp [List.erase_append_right _ h]

theorem advance_none {o : Owner} {s : State} (n : Nat) (h : ∀ w ∈ s.ctl.waiting, ownerOf w.cmd w.operands ≠ o) :
    advance o n s = s := by
  cases n with
  | zero => rfl
  | succ n => simp only [advance, firstWaiting, find?_none_of_owner h]

theorem enqueue_first {c : Cmd} {ops : List Byte} {s : State} (cut : Bool)
    (h : ∀ w ∈ s.ctl.waiting, ownerOf w.cmd w.operands ≠ ownerOf c ops) :
    firstWaiting (ownerOf c ops) (enqueue ⟨c, ops, cut⟩ s) = some ⟨c, ops, cut⟩ := by
  simp [firstWaiting, enqueue, List.find?_append, find?_none_of_owner h]

/-- A command that its free owner serves as soon as it is handed over (R175, R177). -/
theorem toOwner_ready {c : Cmd} {ops : List Byte} {s : State}
    (hfree : ∀ w ∈ s.ctl.waiting, ownerOf w.cmd w.operands ≠ ownerOf c ops)
    (hr : readyAtOnce c ops (enqueue ⟨c, ops, false⟩ s) = true)
    (hq : (serve c ops (s.setCtl { s.ctl with phase := .waiting })).1.ctl.waiting = s.ctl.waiting) :
    toOwner c ops false s
      = sendAnswer (some c) (serve c ops (s.setCtl { s.ctl with phase := .waiting })).2
          (serve c ops (s.setCtl { s.ctl with phase := .waiting })).1 := by
  have hm : (⟨c, ops, false⟩ : Waiting) ∉ s.ctl.waiting := fun hw => hfree _ hw rfl
  have he : dequeue ⟨c, ops, false⟩ (enqueue ⟨c, ops, false⟩ s) = s.setCtl { s.ctl with phase := .waiting } := by
    simp [dequeue, enqueue, erase_append_last hm]
  have hl : (enqueue ⟨c, ops, false⟩ s).ctl.waiting.length = s.ctl.waiting.length + 1 := by
    simp [enqueue]
  have hs : serveWaiting ⟨c, ops, false⟩ (enqueue ⟨c, ops, false⟩ s)
      = sendAnswer (some c) (serve c ops (s.setCtl { s.ctl with phase := .waiting })).2
          (serve c ops (s.setCtl { s.ctl with phase := .waiting })).1 := by
    simp only [serveWaiting, he, respond, Bool.false_eq_true, if_false]
  unfold toOwner advanceAll
  rw [hl]
  simp only [advance, enqueue_first false hfree, hr, if_true, hs]
  exact advance_none _ (by simpa [sendAnswer, hq] using hfree)

/-- A command that its free owner does not serve as soon as it is handed over waits (R176). -/
theorem toOwner_waits {c : Cmd} {ops : List Byte} {s : State} (cut : Bool)
    (hfree : ∀ w ∈ s.ctl.waiting, ownerOf w.cmd w.operands ≠ ownerOf c ops)
    (hr : readyAtOnce c ops (enqueue ⟨c, ops, cut⟩ s) = false) :
    toOwner c ops cut s = enqueue ⟨c, ops, cut⟩ s := by
  have hl : (enqueue ⟨c, ops, cut⟩ s).ctl.waiting.length = s.ctl.waiting.length + 1 := by
    simp [enqueue]
  unfold toOwner advanceAll
  rw [hl]
  simp only [advance, enqueue_first cut hfree, hr, Bool.false_eq_true, if_false]

/-! ### Commands taken in RUN -/

/-- A command that its owner serves at once, taken in RUN: its service and its answer (R174 to R176). -/
theorem commandTaken_served {c : Cmd} {ops : List Byte} {s : State} (h : Hears c ops s)
    (h1 : c ≠ .laneSet) (h2 : c ≠ .laneEnable) (h3 : c ≠ .powerSet)
    (hr : readyAtOnce c ops (taken c ops s) = true)
    (hq : (serve c ops (taken c ops s)).1.ctl.waiting = s.ctl.waiting) :
    commandTaken c.code (Frame.ofOperands ops) s
      = sendAnswer (some c) (serve c ops (taken c ops s)).2 (serve c ops (taken c ops s)).1 := by
  obtain ⟨ho, hp, hk, hl, hfree⟩ := h
  rw [commandTaken_ready ho hk hl, handOver_run (s := framed c ops s) ho.2.2.2.2.2.1 hp h1 h2 h3]
  refine toOwner_ready (s := (framed c ops s).setPwu (heard (framed c ops s))) hfree ?_ hq
  rw [← hr]
  cases c <;> rfl

/-- A command that waits for its owner, taken in RUN (R174, R176). -/
theorem commandTaken_waits {c : Cmd} {ops : List Byte} {s : State} (h : Hears c ops s)
    (h1 : c ≠ .laneSet) (h2 : c ≠ .laneEnable) (h3 : c ≠ .powerSet)
    (hr : readyAtOnce c ops (taken c ops s) = false) :
    commandTaken c.code (Frame.ofOperands ops) s = leftWaiting c (Frame.ofOperands ops) s := by
  obtain ⟨ho, hp, hk, hl, hfree⟩ := h
  rw [commandTaken_ready ho hk hl, handOver_run (s := framed c ops s) ho.2.2.2.2.2.1 hp h1 h2 h3,
    toOwner_waits (s := (framed c ops s).setPwu (heard (framed c ops s))) false hfree (by rw [← hr]; cases c <;> rfl)]
  rfl

/-- A command that a link-level check refuses is answered at once, with no other effect (R174). -/
theorem commandTaken_refused {byte : Byte} {f : Frame} {st : Status} {s : State} (h : Opened s)
    (hr : s.pwu.power = .run) (hf : f.wellFormed = true) (hc : linkCheck byte f s.ctl.link = .error st) (hst : st ≠ .ok) :
    commandTaken byte f s = answeredAtOnce byte f ⟨st, []⟩ s := by
  rw [commandTaken_opened h hf]
  unfold judge
  rw [abortSleepEntry_none (by simpa using h.2.2.2.2.2.1)]
  simp only [State.setCtl_ctl]
  rw [hc]
  simp only [refuseCommand, Bool.false_eq_true, if_false]
  rw [takingActivity_run (by exact h.2.2.2.2.2.1) (by exact hr)]
  simp only [sendAnswer, answeredAtOnce, answeredTxn, heard, Answer.refuse, Txn.ofFrame, hst, decide_false, Bool.and_false]
  rfl

/-! ### Commands served in their turn -/

theorem firstWaiting_owner {o : Owner} {s : State} {w : Waiting} (h : firstWaiting o s = some w) :
    ownerOf w.cmd w.operands = o := by
  simpa using List.find?_some h

theorem atLink_owner {c : Cmd} {ops : List Byte} (h : ownerOf c ops = .rte) : atLink c = true := by
  cases c <;> first | rfl | simp [ownerOf] at h

theorem atLink_waits {c : Cmd} {ops : List Byte} {s : State} (h : atLink c = true) : readyAtOnce c ops s = false := by
  cases c <;> first | rfl | simp [atLink] at h

/-- The RTE serves no command as soon as it is handed over: each waits for the LINK position (R89). -/
theorem advance_rte (n : Nat) (s : State) : advance .rte n s = s := by
  cases n with
  | zero => rfl
  | succ n =>
    simp only [advance]
    split
    · rfl
    · next w hw => rw [if_neg (by simp [atLink_waits (atLink_owner (firstWaiting_owner hw))])]

theorem nextServed_waits {c : Cmd} {ops : List Byte} {s : State} (h : Waits c ops s) :
    nextServed c (Frame.ofOperands ops) s = some ⟨c, ops, false⟩ := by
  obtain ⟨_, _, hl, hf⟩ := h
  have := operandLength_le c
  have hlen := ofOperands_len (ops := ops) (by omega)
  simp [nextServed, hf, hlen, hl]

/-- A command served at the LINK position, with its answer (R89, R176). -/
theorem commandServed_link {c : Cmd} {ops : List Byte} {s : State} (h : WaitsAtLink c ops s)
    (hc : ownerOf c ops = .rte) :
    commandServed c (Frame.ofOperands ops) s
      = finishUnit .link (sendAnswer (some c) (serve c ops (dequeue ⟨c, ops, false⟩ s)).2
          (serve c ops (dequeue ⟨c, ops, false⟩ s)).1) := by
  simp only [commandServed, nextServed_waits h.1, if_neg h.1.2.1, atLink_owner hc, if_true, unitAt, h.2, serveNext,
    serveWaiting, respond, Bool.false_eq_true, if_false, advanceAll, hc, advance_rte]

/-- A command served by an owner that no other command waits for, with its answer (R176). -/
theorem commandServed_owner {c : Cmd} {ops : List Byte} {s : State} (h : Waits c ops s) (hc : atLink c = false)
    (hn : ∀ w ∈ (sendAnswer (some c) (serve c ops (dequeue ⟨c, ops, false⟩ s)).2
        (serve c ops (dequeue ⟨c, ops, false⟩ s)).1).ctl.waiting, ownerOf w.cmd w.operands ≠ ownerOf c ops) :
    commandServed c (Frame.ofOperands ops) s
      = sendAnswer (some c) (serve c ops (dequeue ⟨c, ops, false⟩ s)).2
          (serve c ops (dequeue ⟨c, ops, false⟩ s)).1 := by
  simp only [commandServed, nextServed_waits h, if_neg h.2.1, hc, Bool.false_eq_true, if_false, serveNext,
    serveWaiting, respond, advanceAll]
  exact advance_none _ hn

/-! ### Byte cells -/

@[simp] theorem byteBits_length (b : Byte) : (byteBits b).length = 8 := rfl

/-- The eight bits a cell takes spell the host's byte, most significant bit first (R172). -/
theorem byteOf_byteBits (b : Byte) : byteOf (bitsNat (byteBits b)) = b := by
  revert b
  decide +kernel

/-- With LSEL high the link disregards LCLK and LDI (R172). -/
theorem byteCell_high {s : State} (p : CellPart) (h : s.ctl.lselLow = false) : byteCell p s = s := by
  simp [byteCell, h]

/-- With no cell in progress the clock edges are disregarded (R185). -/
theorem byteCell_noCell {s : State} (p : CellPart) (h : s.ctl.cell = none) : byteCell p s = s := by
  have hs : s.setCtl { s.ctl with cell := none } = s := by rw [← h]; rfl
  cases p <;> simp [byteCell, wholeCell, clockRises, clockFalls, h, hs]

/-- A whole cell after a complete one: the next byte is presented, and the cell completes with the host's byte (R172,
R176). -/
theorem byteCell_whole {s : State} {out : Byte} {answers : Bool} (b : Byte) (h : s.ctl.lselLow = true)
    (hc : s.ctl.cell = some (Cell.complete out answers)) :
    byteCell (.whole b) s = cellCompletes b ⟨[], false, s.ctl.nextOut.1, s.ctl.nextOut.2⟩ s := by
  simp [byteCell, wholeCell, h, hc, Cell.complete, Cell.fall]

end Sys2Proof.Machine
end

