-- ==== Sys2Proof/Laws/Operands.lean ====
section
/-! SUPPORT. What the operand checks accept and refuse (R18, R19, R168, R197). -/

namespace Sys2Proof.Machine

theorem byteAt_bytesAt {ops : List Byte} {i n k : Nat} (hk : k < n) : byteAt (bytesAt ops i n) k = byteAt ops (i + k) := by
  unfold byteAt bytesAt
  simp [List.getD_eq_getElem?_getD, hk]

theorem flagOf_none {n : Nat} : flagOf n = none ↔ 1 < n := by
  unfold flagOf
  split
  · simp; omega
  · split <;> simp <;> omega

theorem flagOf_some {n : Nat} (h : n ≤ 1) : flagOf n = some (decide (n = 1)) := by
  have : n = 0 ∨ n = 1 := by omega
  rcases this with rfl | rfl <;> rfl

theorem WakeEdge.ofCode_isSome {n : Nat} : (WakeEdge.ofCode n).isSome = true ↔ n ≤ 3 := by
  rcases n with _ | _ | _ | _ | n <;> simp [WakeEdge.ofCode]

theorem WakeEdge.ofCode_code (e : WakeEdge) : WakeEdge.ofCode e.code = some e := by cases e <;> rfl

theorem bytesAt_getElem? {ops : List Byte} {i n k : Nat} (hk : k < n) : (bytesAt ops i n)[k]? = ops[i + k]? := by
  simp [bytesAt, hk]

theorem length_bytesAt {ops : List Byte} {i n : Nat} (h : i + n ≤ ops.length) : (bytesAt ops i n).length = n := by
  simp [bytesAt]; omega

theorem edgesOf_isNone {ops : List Byte} (h : 22 ≤ ops.length) :
    edgesOf ((bytesAt ops 6 16).map BitVec.toNat) = none ↔ ∃ n : Fin 16, 3 < byteAt ops (6 + n.val) := by
  unfold edgesOf
  have hl := length_bytesAt (ops := ops) (i := 6) (n := 16) (by omega)
  constructor
  · intro h1
    split at h1
    · cases h1
    · next h2 =>
      by_contra hc
      apply h2
      rw [List.all_eq_true]
      intro x hx
      obtain ⟨b, hb, rfl⟩ := List.mem_map.1 hx
      obtain ⟨k, hk, rfl⟩ := List.mem_iff_getElem.1 hb
      rw [hl] at hk
      refine WakeEdge.ofCode_isSome.2 ?_
      have := not_exists.1 hc ⟨k, hk⟩
      have e : (bytesAt ops 6 16)[k].toNat = byteAt (bytesAt ops 6 16) k := by
        simp [byteAt, List.getD_eq_getElem?_getD, List.getElem?_eq_getElem (l := bytesAt ops 6 16) (hl ▸ hk)]
      rw [e, byteAt_bytesAt hk]
      simpa using this
  · rintro ⟨n, hn⟩
    rw [if_neg]
    intro hc
    rw [List.all_eq_true] at hc
    have hk : n.val < (bytesAt ops 6 16).length := by rw [hl]; exact n.2
    have := WakeEdge.ofCode_isSome.1 (hc _ (List.mem_map_of_mem (List.getElem_mem hk)))
    have e : (bytesAt ops 6 16)[n.val].toNat = byteAt (bytesAt ops 6 16) n.val := by
      simp [byteAt, List.getD_eq_getElem?_getD, List.getElem?_eq_getElem hk]
    rw [e, byteAt_bytesAt n.2] at this
    omega

theorem edgesOf_some {ops : List Byte} {edges : Vector WakeEdge 16} (h : 22 ≤ ops.length)
    (he : ∀ n : Fin 16, byteAt ops (6 + n.val) = (edges[n]).code) :
    edgesOf ((bytesAt ops 6 16).map BitVec.toNat) = some edges := by
  have hn : edgesOf ((bytesAt ops 6 16).map BitVec.toNat) ≠ none := by
    rw [ne_eq, edgesOf_isNone h]
    rintro ⟨n, hn⟩
    rw [he] at hn
    cases h : edges[n] <;> rw [h] at hn <;> simp [WakeEdge.code] at hn
  unfold edgesOf at hn ⊢
  split
  · next h2 =>
    congr 1
    ext n hlt
    simp only [Vector.getElem_ofFn]
    have e : ((bytesAt ops 6 16).map BitVec.toNat).getD n 0 = byteAt ops (6 + n) := by
      rw [← byteAt_bytesAt hlt]
      simp only [byteAt, List.getD_eq_getElem?_getD, List.getElem?_map]
      cases (bytesAt ops 6 16)[n]? <;> rfl
    rw [e, he ⟨n, hlt⟩, WakeEdge.ofCode_code]
    rfl
  · next h2 => exact absurd (if_neg h2) hn

/-- POWER-SET refuses a wake edge code above 3 and an option byte above 1 (R168). -/
theorem parsePower_none {ops : List Byte} (h : 22 ≤ ops.length) : parsePower ops = none ↔
    (∃ n : Fin 16, 3 < byteAt ops (6 + n.val)) ∨ 1 < byteAt ops 22 ∨ 1 < byteAt ops 23 ∨ 1 < byteAt ops 24 := by
  rw [← edgesOf_isNone h, ← flagOf_none, ← flagOf_none, ← flagOf_none]
  unfold parsePower
  split
  · next h1 h2 h3 h4 => simp [h1, h2, h3, h4]
  · next h1 =>
    simp only [true_iff]
    by_contra hc
    simp only [not_or, ← ne_eq, Option.ne_none_iff_exists'] at hc
    obtain ⟨⟨a, ha⟩, ⟨b, hb⟩, ⟨c, hc'⟩, ⟨d, hd⟩⟩ := hc
    exact h1 a b c d ha hb hc' hd

/-- POWER-SET accepts every other value, timers clamped to 255 (R168). -/
theorem parsePower_some {ops : List Byte} {edges : Vector WakeEdge 16} (h : 22 ≤ ops.length)
    (he : ∀ n : Fin 16, byteAt ops (6 + n.val) = (edges[n]).code) (h1 : byteAt ops 22 ≤ 1) (h2 : byteAt ops 23 ≤ 1)
    (h3 : byteAt ops 24 ≤ 1) : parsePower ops = some ⟨min 255 (natAt ops 0 2), min 255 (natAt ops 2 2),
      min 255 (natAt ops 4 2), edges, byteAt ops 22 = 1, byteAt ops 23 = 1, byteAt ops 24 = 1⟩ := by
  unfold parsePower
  rw [edgesOf_some h he, flagOf_some h1, flagOf_some h2, flagOf_some h3]

theorem LaneKind.ofCode_isSome {n : Nat} : (LaneKind.ofCode n).isSome = true ↔ n ≤ 3 := by
  rcases n with _ | _ | _ | _ | n <;> simp [LaneKind.ofCode]

theorem LaneKind.ofCode_code {n : Nat} {k : LaneKind} (h : LaneKind.ofCode n = some k) : k.code.toNat = n := by
  rcases n with _ | _ | _ | _ | n <;> simp [LaneKind.ofCode] at h <;> subst h <;> rfl

/-- What a LANE-SET that is accepted has passed: every code in its list, W and A unless the kind is MANAGEMENT, and the pin
map entries of the kind's roles (R19). -/
theorem parseLaneConfig_some {b : List Byte} {c : LaneConfig} (h : parseLaneConfig b = some c) :
    ∃ kind, LaneKind.ofCode (byteAt b 0) = some kind ∧ byteAt b 3 ≤ 1 ∧ byteAt b 6 ≤ 3 ∧ byteAt b 7 ≤ 1
      ∧ byteAt b 9 ≤ 1 ∧ byteAt b 10 ≤ 2 ∧ widthsAccepted kind (byteAt b 1) (byteAt b 2) = true
      ∧ (∀ n ∈ roleEntries kind (clampSelects (byteAt b 8)) ((bytesAt b 13 11).map BitVec.toNat), n ≤ 15)
      ∧ (roleEntries kind (clampSelects (byteAt b 8)) ((bytesAt b 13 11).map BitVec.toNat)).Nodup := by
  unfold parseLaneConfig at h
  split at h
  · next kind bo bi po au h1 h2 h3 h4 h5 =>
    dsimp only at h
    split at h
    · next hc =>
      refine ⟨kind, h1, ?_, hc.1, ?_, ?_, ?_, hc.2.1, hc.2.2.1, hc.2.2.2⟩
      · revert h2; unfold ByteOrder.ofCode; split <;> simp_all
      · revert h3; unfold BitOrder.ofCode; split <;> simp_all
      · revert h4; unfold Polarity.ofCode; split <;> simp_all
      · revert h5; unfold Autoincrement.ofCode; split <;> simp_all
    · cases h
  · cases h

end Sys2Proof.Machine
end

