-- ==== Sys2Proof/Laws/Ops.lean ====
section
/-! SUPPORT. One lemma per shared operation that says everything it can do: outcomes, units of the RTE, raises, the
service rotation, and the moves of the panel and of the power chain. -/

namespace Sys2Proof.Machine

/-! ### Outcomes -/

theorem live_next {f : State → State} {s : State} (h : s.inReset = false) : live f s = .next (settle (f s)) := by
  simp [live, h]

theorem live_held {f : State → State} {s : State} (h : s.inReset = true) : live f s = .next s := by
  simp [live, h]

theorem liveInput_next {g f : State → State} {s : State} (h : s.inReset = false) :
    liveInput g f s = .next (settle (f s)) := by
  simp [liveInput, h]

theorem liveInput_held {g f : State → State} {s : State} (h : s.inReset = true) : liveInput g f s = .next (g s) := by
  simp [liveInput, h]

/-! ### The service rotation -/

/-- The unit the RTE stands at after `settle` (R89). -/
def settled (s : State) : Option Position :=
  match s.rte.serving with
  | some p => if unitWaits s p then some p else nextPosition s
  | none => nextPosition s

theorem settle_eq (s : State) : settle s = s.setRte { s.rte with serving := settled s } := rfl

@[simp] theorem settle_pfe (s : State) : (settle s).pfe = s.pfe := rfl
@[simp] theorem settle_lanes (s : State) : (settle s).lanes = s.lanes := rfl
@[simp] theorem settle_wta (s : State) : (settle s).wta = s.wta := rfl
@[simp] theorem settle_dse (s : State) : (settle s).dse = s.dse := rfl
@[simp] theorem settle_pwu (s : State) : (settle s).pwu = s.pwu := rfl
@[simp] theorem settle_ctl (s : State) : (settle s).ctl = s.ctl := rfl
@[simp] theorem settle_pim (s : State) : (settle s).pim = s.pim := rfl
@[simp] theorem settle_inReset (s : State) : (settle s).inReset = s.inReset := rfl
@[simp] theorem settle_pending (s : State) : (settle s).pending = s.pending := rfl
@[simp] theorem settle_table (s : State) : (settle s).rte.table = s.rte.table := rfl
@[simp] theorem settle_epoch (s : State) : (settle s).rte.epoch = s.rte.epoch := rfl
@[simp] theorem settle_epochTimer (s : State) : (settle s).rte.epochTimer = s.rte.epochTimer := rfl
@[simp] theorem settle_hold (s : State) : (settle s).rte.hold = s.rte.hold := rfl
@[simp] theorem settle_cursor (s : State) : (settle s).rte.cursor = s.rte.cursor := rfl
@[simp] theorem settle_walkNote (s : State) : (settle s).rte.walkNote = s.rte.walkNote := rfl
@[simp] theorem settle_capture (s : State) : (settle s).rte.capture = s.rte.capture := rfl
@[simp] theorem settle_last (s : State) : (settle s).rte.last = s.rte.last := rfl
theorem settle_serving (s : State) : (settle s).rte.serving = settled s := rfl

theorem finishUnit_eq (p : Position) (s : State) :
    finishUnit p s = s.setRte { s.rte with last := p, serving := none } := rfl

theorem unitAt_serving {p : Position} {f : State → State} {s : State} (h : s.rte.serving = some p) :
    unitAt p f s = finishUnit p (f s) := by
  simp [unitAt, h]

theorem unitAt_other {p : Position} {f : State → State} {s : State} (h : s.rte.serving ≠ some p) :
    unitAt p f s = s := by
  simp [unitAt, h]

/-! ### Raises -/

theorem raise_eq (c : Cause) (s : State) : raise c s = s.setWta { s.wta with causes := s.wta.causes ||| c.bit } := rfl

/-- A raise changes the cause set and nothing else. -/
theorem raiseIf_eq (b : Bool) (c : Cause) (s : State) :
    raiseIf b c s = s.setWta { s.wta with causes := s.wta.causes ||| (if b then c.bit else 0) } := by
  cases b
  · have h : s.wta.causes ||| (0 : BitVec 9) = s.wta.causes := BitVec.or_zero
    simp only [raiseIf, Bool.false_eq_true, if_false, h]
    rfl
  · rfl

/-! ### The panel -/

theorem panelTurnOff_on {s : State} (h : s.dse.panelOn = true) :
    panelTurnOff s = s.setDse { s.dse with
      panelOn := false, refreshTimer := none, refresh := none
      port := withdrawLines s.dse.port ++ [.panelOff] } := by
  simp [panelTurnOff, h]

theorem panelTurnOff_off {s : State} (h : s.dse.panelOn = false) : panelTurnOff s = s := by
  simp [panelTurnOff, h]

theorem panelTurnOn_on {s : State} (h : s.dse.panelOn = true) : panelTurnOn s = s := by
  simp [panelTurnOn, h]

theorem panelTurnOn_early {s : State} (h : startUpDone s = false) : panelTurnOn s = s := by
  simp [panelTurnOn, h]

/-- The panel comes ON with its message queued, its timer running and a repaint in flight, and nothing else changes. -/
theorem panelTurnOn_off {s : State} (h : s.dse.panelOn = false) (hd : startUpDone s = true) :
    ∃ rf : Refresh, rf.isRepaint = true ∧ panelTurnOn s = s.setDse { s.dse with
      panelOn := true, refreshTimer := some (refreshPeriod s.pwu.power), refresh := some rf
      port := s.dse.port ++ [.panelOn] } := by
  refine ⟨newRefresh true (s.setDse { s.dse with
    panelOn := true, refreshTimer := some (refreshPeriod s.pwu.power), port := s.dse.port ++ [.panelOn] }), rfl, ?_⟩
  simp [panelTurnOn, h, hd, startRefresh]

/-- `panelTurnOn` touches the Display Engine alone. -/
theorem panelTurnOn_dse (s : State) : ∃ d : Dse, panelTurnOn s = s.setDse d := by
  unfold panelTurnOn startRefresh
  split
  · exact ⟨s.dse, rfl⟩
  · exact ⟨_, rfl⟩

/-- `panelTurnOff` touches the Display Engine alone. -/
theorem panelTurnOff_dse (s : State) : ∃ d : Dse, panelTurnOff s = s.setDse d := by
  unfold panelTurnOff
  split
  · exact ⟨_, rfl⟩
  · exact ⟨s.dse, rfl⟩

/-- `refreshTimerMoves` touches the refresh timer alone. -/
theorem refreshTimerMoves_eq (p : PowerState) (s : State) :
    refreshTimerMoves p s = s.setDse { s.dse with
      refreshTimer := if s.dse.panelOn then some (refreshPeriod p) else s.dse.refreshTimer } := by
  unfold refreshTimerMoves
  cases s.dse.panelOn <;> rfl

/-! ### The power chain -/

theorem toRun_eq (p : Pwu) :
    p.toRun = { p with power := .run, op := .none, timer := startTimer .dim p.dim, deferred := false } := rfl

/-- An activity event touches the lanes, the Display Engine and the PWU alone (R160, R164). -/
theorem activity_frame (s : State) :
    ∃ (l : Vector Lane 4) (d : Dse) (p : Pwu), activity s = ((s.setLanes l).setDse d).setPwu p := by
  unfold activity abortSleepEntry
  split
  · obtain ⟨d, hd⟩ := panelTurnOn_dse (restartEnabled (s.setPwu s.pwu.toRun))
    rw [hd]
    exact ⟨_, d, _, rfl⟩
  · cases h : s.pwu.power <;> simp only
    · exact ⟨s.lanes, s.dse, _, rfl⟩
    · rw [refreshTimerMoves_eq]
      exact ⟨s.lanes, _, _, rfl⟩
    · obtain ⟨d, hd⟩ := panelTurnOn_dse (s.setPwu s.pwu.toRun)
      rw [hd]
      exact ⟨s.lanes, d, _, rfl⟩
    · exact ⟨s.lanes, s.dse, s.pwu, rfl⟩

theorem activityIf_frame (b : Bool) (s : State) :
    ∃ (l : Vector Lane 4) (d : Dse) (p : Pwu), activityIf b s = ((s.setLanes l).setDse d).setPwu p := by
  cases b
  · exact ⟨s.lanes, s.dse, s.pwu, rfl⟩
  · exact activity_frame s

/-- The beginning of sleep entry touches the lanes, the Display Engine and the PWU alone (R162). -/
theorem beginSleepEntry_frame (s : State) :
    ∃ (l : Vector Lane 4) (d : Dse) (p : Pwu), beginSleepEntry s = ((s.setLanes l).setDse d).setPwu p := by
  unfold beginSleepEntry
  split
  · obtain ⟨d, hd⟩ := panelTurnOff_dse ((s.setPwu { s.pwu with
      power := .dark, op := .sleepEntry, timer := none, deferred := false }).setLanes (mapAll (Lane.stop s.pfe.levels) s.lanes))
    exact ⟨_, d, _, hd⟩
  · exact ⟨s.lanes, s.dse, s.pwu, rfl⟩

theorem wakeEvent_sleep {src : WakeSource} {s : State} (h : s.pwu.power = .sleep) :
    wakeEvent src s = s.setPwu { s.pwu with op := .wake, wakePending := s.pwu.wakePending.add src } := by
  simp [wakeEvent, h]

theorem wakeEvent_awake {src : WakeSource} {s : State} (h : s.pwu.power ≠ .sleep) : wakeEvent src s = s := by
  simp [wakeEvent, h]

/-! ### Numbered resources -/

theorem mapAll_get {α β : Type} {n : Nat} (f : α → β) (v : Vector α n) (i : Fin n) : (mapAll f v)[i] = f v[i] := by
  simp [mapAll]

theorem modifyAt_get {α : Type} {n : Nat} (v : Vector α n) (i j : Fin n) (f : α → α) :
    (modifyAt v i f)[j] = if i = j then f v[i] else v[j] := by
  simp only [modifyAt, Fin.getElem_fin, Vector.getElem_set, Fin.val_inj]

end Sys2Proof.Machine
end

