-- ==== Sys2Proof/Laws/PerInstr.lean ====
section
/-! SUPPORT. A statement about the syntax of every command, one lemma for each constructor. -/

namespace Sys2Proof.Laws

/-- The frame a row carries, for the rows that a frame of the link brings about. -/
def frameOf : Instr → Option Frame
  | .identify f | .release f | .status f | .acknowledge f | .attnEnable f | .restart f | .probeSet f
  | .laneSet f | .laneEnable f | .watchFree f | .takeWatch f | .trapRead f | .viewSet f | .viewOptions f
  | .panelSet f | .powerSet f | .powerStatus f | .profileLoad f | .profileStore f | .profileStatus f => some f
  | .probeRead _ f | .laneStatus _ f | .lookup _ f | .walk _ f | .walkFrom _ f | .seed _ f | .amend _ f
  | .retire _ f | .clearTable _ f | .tableInfo _ f | .hold _ f | .watchSet _ f | .trapSet _ f | .sleep _ f
  | .unknownCommand _ f => some f
  | .lselFallingEdge | .lselRisingEdge | .completeDelivery | .rawLevelChange _ | .qualifiedEdge _
  | .absorption _ | .marking _ | .retirement _ | .rankingSlice | .drawingSlice | .settingsBlock
  | .seedApplication | .imageJudgement | .invalidate | .erase | .program _ | .verify | .commit | .epochExpiry
  | .dimTimerExpiry | .darkTimerExpiry | .sleepTimerExpiry | .sleepEntryCompletion | .wakeSideEdge _
  | .wakeCompletion | .refreshExpiry | .line | .holdkeyChange _ | .debounceExpiry | .powerOn | .resetPin
  | .supplyLow | .byteCell _ | .panelMessageSent | .resetRelease => none

/-- A frame as the link delivers it carries the operand bytes its length announces, at most 64, and none for a length above
64 (R173, R174). -/
theorem wellFormed_frame {f : Frame} (h : f.wellFormed = true) :
    f.operands.length ≤ 64 ∧ (f.len.toNat ≤ 64 → f.operands.length = f.len.toNat)
      ∧ (64 < f.len.toNat → f.operands = []) := by
  unfold Frame.wellFormed at h
  have h := beq_iff_eq.1 h
  refine ⟨?_, fun hl => by rw [h, if_pos hl], fun hl => List.eq_nil_of_length_eq_zero (by rw [h, if_neg (by omega)])⟩
  rw [h]
  split <;> omega

namespace F

/-- A well-formed row carries no more operand bytes than a frame of the link can: as many as its length announces, at most
64 (R173, R174). -/
def Statement (i : Instr) : Prop :=
  i.wellFormed = true → ∀ f, frameOf i = some f →
    f.operands.length ≤ 64 ∧ (f.len.toNat ≤ 64 → f.operands.length = f.len.toNat)
      ∧ (64 < f.len.toNat → f.operands = [])

theorem of_frame {i : Instr} {f : Frame} (hf : frameOf i = some f) (hw : i.wellFormed = true → f.wellFormed = true) :
    Statement i := by
  intro h g hg
  obtain rfl := Option.some.inj (hf.symm.trans hg)
  exact wellFormed_frame (hw h)

theorem of_none {i : Instr} (hf : frameOf i = none) : Statement i := by
  intro _ g hg
  rw [hf] at hg
  cases hg

theorem identify (f : Frame) : Statement (.identify f) := of_frame rfl id
theorem release (f : Frame) : Statement (.release f) := of_frame rfl id
theorem status (f : Frame) : Statement (.status f) := of_frame rfl id
theorem acknowledge (f : Frame) : Statement (.acknowledge f) := of_frame rfl id
theorem attnEnable (f : Frame) : Statement (.attnEnable f) := of_frame rfl id
theorem restart (f : Frame) : Statement (.restart f) := of_frame rfl id
theorem probeSet (f : Frame) : Statement (.probeSet f) := of_frame rfl id
theorem probeRead (m : Moment) (f : Frame) : Statement (.probeRead m f) := of_frame rfl id
theorem laneSet (f : Frame) : Statement (.laneSet f) := of_frame rfl id
theorem laneEnable (f : Frame) : Statement (.laneEnable f) := of_frame rfl id
theorem laneStatus (m : Moment) (f : Frame) : Statement (.laneStatus m f) := of_frame rfl id
theorem lookup (m : Moment) (f : Frame) : Statement (.lookup m f) := of_frame rfl id
theorem walk (m : Moment) (f : Frame) : Statement (.walk m f) := of_frame rfl id
theorem walkFrom (m : Moment) (f : Frame) : Statement (.walkFrom m f) := of_frame rfl id
theorem seed (m : Moment) (f : Frame) : Statement (.seed m f) := of_frame rfl id
theorem amend (m : Moment) (f : Frame) : Statement (.amend m f) := of_frame rfl id
theorem retire (m : Moment) (f : Frame) : Statement (.retire m f) := of_frame rfl id
theorem clearTable (m : Moment) (f : Frame) : Statement (.clearTable m f) := of_frame rfl id
theorem tableInfo (m : Moment) (f : Frame) : Statement (.tableInfo m f) := of_frame rfl id
theorem hold (m : Moment) (f : Frame) : Statement (.hold m f) := of_frame rfl id
theorem watchSet (m : Moment) (f : Frame) : Statement (.watchSet m f) := of_frame rfl id
theorem watchFree (f : Frame) : Statement (.watchFree f) := of_frame rfl id
theorem takeWatch (f : Frame) : Statement (.takeWatch f) := of_frame rfl id
theorem trapSet (m : Moment) (f : Frame) : Statement (.trapSet m f) := of_frame rfl id
theorem trapRead (f : Frame) : Statement (.trapRead f) := of_frame rfl id
theorem viewSet (f : Frame) : Statement (.viewSet f) := of_frame rfl id
theorem viewOptions (f : Frame) : Statement (.viewOptions f) := of_frame rfl id
theorem panelSet (f : Frame) : Statement (.panelSet f) := of_frame rfl id
theorem powerSet (f : Frame) : Statement (.powerSet f) := of_frame rfl id
theorem powerStatus (f : Frame) : Statement (.powerStatus f) := of_frame rfl id
theorem sleep (m : Moment) (f : Frame) : Statement (.sleep m f) := of_frame rfl id
theorem profileLoad (f : Frame) : Statement (.profileLoad f) := of_frame rfl id
theorem profileStore (f : Frame) : Statement (.profileStore f) := of_frame rfl id
theorem profileStatus (f : Frame) : Statement (.profileStatus f) := of_frame rfl id
theorem unknownCommand (byte : Byte) (f : Frame) : Statement (.unknownCommand byte f) :=
  of_frame rfl fun h => (Bool.and_eq_true _ _ ▸ h).2
theorem lselFallingEdge : Statement (.lselFallingEdge) := of_none rfl
theorem lselRisingEdge : Statement (.lselRisingEdge) := of_none rfl
theorem completeDelivery : Statement (.completeDelivery) := of_none rfl
theorem rawLevelChange (change : RawChange) : Statement (.rawLevelChange change) := of_none rfl
theorem qualifiedEdge (edges : DueEdges) : Statement (.qualifiedEdge edges) := of_none rfl
theorem absorption (lane : Fin 4) : Statement (.absorption lane) := of_none rfl
theorem marking (lane : Fin 4) : Statement (.marking lane) := of_none rfl
theorem retirement (lane : Fin 4) : Statement (.retirement lane) := of_none rfl
theorem rankingSlice : Statement (.rankingSlice) := of_none rfl
theorem drawingSlice : Statement (.drawingSlice) := of_none rfl
theorem settingsBlock : Statement (.settingsBlock) := of_none rfl
theorem seedApplication : Statement (.seedApplication) := of_none rfl
theorem imageJudgement : Statement (.imageJudgement) := of_none rfl
theorem invalidate : Statement (.invalidate) := of_none rfl
theorem erase : Statement (.erase) := of_none rfl
theorem program (defects : List Host.Cell) : Statement (.program defects) := of_none rfl
theorem verify : Statement (.verify) := of_none rfl
theorem commit : Statement (.commit) := of_none rfl
theorem epochExpiry : Statement (.epochExpiry) := of_none rfl
theorem dimTimerExpiry : Statement (.dimTimerExpiry) := of_none rfl
theorem darkTimerExpiry : Statement (.darkTimerExpiry) := of_none rfl
theorem sleepTimerExpiry : Statement (.sleepTimerExpiry) := of_none rfl
theorem sleepEntryCompletion : Statement (.sleepEntryCompletion) := of_none rfl
theorem wakeSideEdge (probe : Fin 16) : Statement (.wakeSideEdge probe) := of_none rfl
theorem wakeCompletion : Statement (.wakeCompletion) := of_none rfl
theorem refreshExpiry : Statement (.refreshExpiry) := of_none rfl
theorem line : Statement (.line) := of_none rfl
theorem holdkeyChange (low : Bool) : Statement (.holdkeyChange low) := of_none rfl
theorem debounceExpiry : Statement (.debounceExpiry) := of_none rfl
theorem powerOn : Statement (.powerOn) := of_none rfl
theorem resetPin : Statement (.resetPin) := of_none rfl
theorem supplyLow : Statement (.supplyLow) := of_none rfl
theorem byteCell (p : CellPart) : Statement (.byteCell p) := of_none rfl
theorem panelMessageSent : Statement (.panelMessageSent) := of_none rfl
theorem resetRelease : Statement (.resetRelease) := of_none rfl

end F

end Sys2Proof.Laws
end

