-- ==== Sys2Proof/Laws/Probe.lean ====
section
/-! SUPPORT. The probes after their filters and after a moment's qualified edges (R3, R5), and what an offer of edges to the
lanes can do (R6). -/

namespace Sys2Proof.Machine

/-! ### Filters and candidates -/

theorem Pfe.qualify_get (ps : List (Fin 16)) (x : Pfe) (i : Fin 16) :
    (x.qualify ps).probes[i] = if i ∈ ps then (x.probes[i]).qualified else x.probes[i] := by
  simp only [Pfe.qualify, Fin.getElem_fin, Vector.getElem_ofFn]

theorem Pfe.filterWhere_get (f : Fin 16 → Bool) (x : Pfe) (i : Fin 16) :
    (x.filterWhere f).probes[i] =
      if f i then (x.probes[i]).filtered (x.bank i).width (x.raw i) else x.probes[i] := by
  simp only [Pfe.filterWhere, Fin.getElem_fin, Vector.getElem_ofFn]

/-- A bank change leaves the pins, qualifies the candidates marked as due, and drops the marks (R6; log 26). -/
theorem Pfe.withBanks_one (r : BankRequest) (x : Pfe) :
    x.withBanks [r] = { x.qualify x.due with
      banks := x.banks.set r.bank ⟨thresholdCode r.millivolts, min 15 r.width⟩, due := [] } := rfl

/-! ### What an offer can do -/

theorem activityIf_lanes {b : Bool} {s : State} (h : lanesStopped s = false) :
    (activityIf b s).lanes = s.lanes ∧ (activityIf b s).pfe = s.pfe ∧ lanesStopped (activityIf b s) = false := by
  obtain ⟨ho, hp⟩ := Bool.or_eq_false_iff.1 h
  have ho : s.pwu.op ≠ .sleepEntry := of_decide_eq_false ho
  have hp : s.pwu.power ≠ .sleep := of_decide_eq_false hp
  cases b
  · exact ⟨rfl, rfl, h⟩
  · rw [activityIf, if_pos rfl, activity, if_neg ho]
    cases hpw : s.pwu.power <;> simp only
    · exact ⟨rfl, rfl, rfl⟩
    · rw [refreshTimerMoves_eq]
      exact ⟨rfl, rfl, rfl⟩
    · obtain ⟨d, hd⟩ := panelTurnOn_dse (s.setPwu s.pwu.toRun)
      rw [hd]
      exact ⟨rfl, rfl, rfl⟩
    · exact absurd hpw hp

/-- One lane reads a change: its own state moves, and no other lane's. -/
theorem offerTo_lanes {before after : Levels} {s : State} {i : Fin 4} (h : lanesStopped s = false) :
    (offerTo before after s i).lanes = s.lanes.set i (laneChange i before after s.lanes[i]).lane
      ∧ (offerTo before after s i).pfe = s.pfe ∧ lanesStopped (offerTo before after s i) = false := by
  unfold offerTo laneEffects
  simp only [raiseIf_eq]
  exact activityIf_lanes (s := (s.setLane i (laneChange i before after s.lanes[i]).lane).setWta _) h

/-- The lanes read no edge while they are stopped (R36, R165). -/
theorem offer_stopped {before : Levels} {s : State} (h : lanesStopped s = true) : offer before s = s := by
  rw [offer, if_pos h]

/-- A walk over the four lanes whose turn at a lane moves that lane alone. -/
theorem foldl_lanes {f : State → Fin 4 → State} {g : Fin 4 → Lane → Lane} {P : State → Prop}
    (hf : ∀ s i, P s → (f s i).lanes = s.lanes.set i (g i s.lanes[i]) ∧ P (f s i)) {s : State} (h : P s) (i : Fin 4) :
    (([0, 1, 2, 3] : List (Fin 4)).foldl f s).lanes[i] = g i s.lanes[i] := by
  have h0 := hf s 0 h
  have h1 := hf _ 1 h0.2
  have h2 := hf _ 2 h1.2
  have h3 := hf _ 3 h2.2
  show (f (f (f (f s 0) 1) 2) 3).lanes[i] = _
  simp only [h3.1, h2.1, h1.1, h0.1]
  match i with
  | 0 | 1 | 2 | 3 => simp

/-- Each lane reads the edges of a moment as one change of levels (R6). -/
theorem offer_lanes {before : Levels} {s : State} (h : lanesStopped s = false) (i : Fin 4) :
    (offer before s).lanes[i] = (laneChange i before s.pfe.levels s.lanes[i]).lane := by
  rw [offer, if_neg (by rw [h]; exact Bool.false_ne_true)]
  exact foldl_lanes (g := fun i l => (laneChange i before s.pfe.levels l).lane) (P := fun s => lanesStopped s = false)
    (fun _ _ h => ⟨(offerTo_lanes h).1, (offerTo_lanes h).2.2⟩) h i

end Sys2Proof.Machine
end

