-- ==== Sys2Proof/Laws/Table.lean ====
section
/-! SUPPORT. The register table as a map (R85): lookup after each update, and the order each update keeps; and the parts of an
absorption (R91, R129). -/

namespace Sys2Proof.Machine

/-! ### Keys -/

theorem Key.num_lt (k : Key) : k.num < 2 ^ 28 := by
  have h1 := k.lane.isLt
  have h2 := k.target.isLt
  have h3 := k.register.isLt
  unfold Key.num
  omega

theorem Key.num_inj {a b : Key} (h : a.num = b.num) : a = b := by
  obtain ⟨l, t, r⟩ := a
  obtain ⟨l', t', r'⟩ := b
  have h2 := t.isLt
  have h2' := t'.isLt
  have h3 := r.isLt
  have h3' := r'.isLt
  simp only [Key.num] at h
  have e1 : l.val = l'.val := by omega
  have e2 : t.toNat = t'.toNat := by omega
  have e3 : r.toNat = r'.toNat := by omega
  rw [Fin.ext e1, BitVec.eq_of_toNat_eq e2, BitVec.eq_of_toNat_eq e3]

theorem Key.num_ofNum {n : Nat} (h : n < 2 ^ 28) : (Key.ofNum n).num = n := by
  simp only [Key.num, Key.ofNum, Fin.ofNat, BitVec.toNat_ofNat]
  omega

theorem Key.next_num {k k' : Key} (h : k.next = some k') : k'.num = k.num + 1 := by
  unfold Key.next at h
  split at h
  · next hlt =>
    cases h
    exact Key.num_ofNum hlt
  · cases h

/-! ### Lookup -/

theorem lookup_key {k : Key} {t : List Record} {r : Record} (h : lookup k t = some r) : r.key = k := by
  simpa using List.find?_some h

theorem lookup_mem {k : Key} {t : List Record} {r : Record} (h : lookup k t = some r) : r ∈ t :=
  List.mem_of_find?_eq_some h

theorem lookup_none {k : Key} {t : List Record} : lookup k t = none ↔ ∀ r ∈ t, r.key ≠ k := by
  simp [lookup, List.find?_eq_none]

/-! ### Updates -/

theorem mem_insertRecord {r x : Record} {t : List Record} : x ∈ insertRecord r t ↔ x = r ∨ x ∈ t := by
  induction t with
  | nil => simp [insertRecord]
  | cons y ys ih =>
    simp only [insertRecord]
    split
    · simp
    · simp only [List.mem_cons, ih]
      tauto

theorem length_insertRecord (r : Record) (t : List Record) : (insertRecord r t).length = t.length + 1 := by
  induction t with
  | nil => rfl
  | cons y ys ih =>
    simp only [insertRecord]
    split
    · rfl
    · simp [ih]

/-- A record inserted under a new key keeps the key order (R85). -/
theorem insertRecord_order {r : Record} {t : List Record} (h : (t.map fun x => x.key.num).Pairwise (· < ·))
    (hr : ∀ x ∈ t, x.key ≠ r.key) : ((insertRecord r t).map fun x => x.key.num).Pairwise (· < ·) := by
  induction t with
  | nil => simp [insertRecord]
  | cons y ys ih =>
    simp only [List.map_cons, List.pairwise_cons] at h
    simp only [insertRecord]
    split
    · next hlt =>
      simp only [List.map_cons, List.pairwise_cons]
      refine ⟨?_, h⟩
      intro a ha
      rcases List.mem_cons.1 ha with rfl | ha
      · exact hlt
      · exact hlt.trans (h.1 a ha)
    · next hlt =>
      simp only [List.map_cons, List.pairwise_cons]
      refine ⟨?_, ih h.2 fun x hx => hr x (List.mem_cons_of_mem _ hx)⟩
      intro a ha
      obtain ⟨x, hx, rfl⟩ := List.mem_map.1 ha
      rcases mem_insertRecord.1 hx with rfl | hx
      · have hne : y.key.num ≠ x.key.num := fun e => hr y List.mem_cons_self (Key.num_inj e)
        omega
      · exact h.1 _ (List.mem_map_of_mem hx)

theorem map_key_of_key {f : Record → Record} (hf : ∀ r, (f r).key = r.key) (t : List Record) :
    (t.map f).map (fun r => r.key.num) = t.map fun r => r.key.num := by
  simp [List.map_map, Function.comp_def, hf]

theorem updateRecord_order {k : Key} {f : Record → Record} (hf : ∀ r, r.key = k → (f r).key = k) (t : List Record) :
    (updateRecord k f t).map (fun r => r.key.num) = t.map fun r => r.key.num := by
  unfold updateRecord
  refine map_key_of_key (f := fun r => if r.key = k then f r else r) ?_ t
  intro r
  split
  · next h => rw [hf r h, h]
  · rfl

/-- Updating the record just inserted under a new key is inserting the updated record. -/
theorem updateRecord_insertRecord {r : Record} {f : Record → Record} {t : List Record} (hf : (f r).key = r.key)
    (ht : ∀ x ∈ t, x.key ≠ r.key) : updateRecord r.key f (insertRecord r t) = insertRecord (f r) t := by
  have hrest : ∀ xs : List Record, (∀ x ∈ xs, x.key ≠ r.key) → updateRecord r.key f xs = xs := by
    intro xs hxs
    unfold updateRecord
    refine (List.map_congr_left fun x hx => if_neg (hxs x hx)).trans (List.map_id' xs)
  induction t with
  | nil => simp [insertRecord, updateRecord]
  | cons y ys ih =>
    have hys : ∀ x ∈ ys, x.key ≠ r.key := fun x hx => ht x (List.mem_cons_of_mem _ hx)
    have hy : y.key ≠ r.key := ht y List.mem_cons_self
    simp only [insertRecord, hf]
    split
    · have := hrest (y :: ys) ht
      simp only [updateRecord, List.map_cons, if_true] at this ⊢
      rw [this]
    · have := ih hys
      simp only [updateRecord, List.map_cons, if_neg hy] at this ⊢
      rw [this]

theorem lookup_updateRecord {k : Key} {f : Record → Record} {t : List Record} {r : Record} (h : lookup k t = some r)
    (hf : (f r).key = k) : lookup k (updateRecord k f t) = some (f r) := by
  induction t with
  | nil => cases h
  | cons y ys ih =>
    by_cases hy : y.key = k
    · have e : y = r := by simpa [lookup, hy] using h
      subst e
      simp [lookup, updateRecord, hy, hf]
    · have h' : lookup k ys = some r := by simpa [lookup, hy] using h
      simpa [lookup, updateRecord, hy] using ih h'

theorem removeRecord_order {k : Key} {t : List Record} (h : (t.map fun x => x.key.num).Pairwise (· < ·)) :
    ((removeRecord k t).map fun x => x.key.num).Pairwise (· < ·) :=
  h.sublist (List.filter_sublist.map _)

theorem mem_removeRecord {k : Key} {t : List Record} {x : Record} : x ∈ removeRecord k t ↔ x ∈ t ∧ x.key ≠ k := by
  simp [removeRecord]

theorem length_removeRecord {t : List Record} {r : Record} (h : r ∈ t) : (removeRecord r.key t).length < t.length := by
  unfold removeRecord
  refine List.length_filter_lt_length_iff_exists.2 ⟨r, h, by simp⟩

/-! ### Eviction and admission -/

theorem pickColder_mem {e : Nat} {t : List Record} {b : Option Record} {c : Record}
    (h : t.foldl (pickColder e) b = some c) : c ∈ t ∨ b = some c := by
  induction t generalizing b with
  | nil => exact Or.inr h
  | cons y ys ih =>
    rcases ih h with hc | hc
    · exact Or.inl (List.mem_cons_of_mem _ hc)
    · unfold pickColder at hc
      split at hc
      · cases hc
        exact Or.inl List.mem_cons_self
      · split at hc
        · cases hc
          exact Or.inl List.mem_cons_self
        · exact Or.inr hc

/-- The eviction candidate is a record of the table, neither pinned nor bound to a watch slot (R93). -/
theorem evictionCandidate_spec {e : Nat} {t : List Record} {c : Record} (h : evictionCandidate e t = some c) :
    c ∈ t ∧ c.pinned = false ∧ c.watch = none := by
  rcases pickColder_mem h with hc | hc
  · obtain ⟨h1, h2⟩ := List.mem_filter.1 hc
    simpa [Record.evictable, h1] using h2
  · cases hc

/-- Retirement removes the record and tells the slot that watches it (R99, R126). -/
theorem retireRecord_eq (r : Record) (s : State) :
    retireRecord r s
      = (s.setRte { s.rte with table := removeRecord r.key s.rte.table }).setWta
          { s.wta with slots := match r.watch with
            | none => s.wta.slots
            | some i => modifyAt s.wta.slots i Slot.retired } := by
  unfold retireRecord
  cases r.watch <;> rfl

/-- Admission: a record created, after an eviction in a full table, or a refusal (R92, R93, R94). -/
theorem admit_cases (k : Key) (w : Nat) (s : State) :
    (s.rte.table.length < Config.tableCapacity ∧ admitKey k w s = (createRecord k w s, true))
      ∨ (Config.tableCapacity ≤ s.rte.table.length
        ∧ ((∃ c, evictionCandidate s.rte.epoch s.rte.table = some c
            ∧ admitKey k w s = (createRecord k w (retireRecord c s), true))
          ∨ (evictionCandidate s.rte.epoch s.rte.table = none ∧ admitKey k w s = (refuseAdmission k s, false)))) := by
  unfold admitKey
  by_cases h : s.rte.table.length < Config.tableCapacity
  · exact Or.inl ⟨h, if_pos h⟩
  · rw [if_neg h]
    refine Or.inr ⟨Nat.not_lt.1 h, ?_⟩
    cases hc : evictionCandidate s.rte.epoch s.rte.table with
    | none => exact Or.inr ⟨rfl, rfl⟩
    | some c => exact Or.inl ⟨c, rfl, rfl⟩

/-! ### Absorption -/

/-- The first step of absorption: the windows that match count, and a NOTIFY match raises TRAP (R129). -/
theorem matchTraps_eq (p : Posting) (s : State) :
    matchTraps p s
      = s.setWta { s.wta with traps := countedTraps p s, causes := s.wta.causes ||| trapCause p s } := by
  unfold matchTraps
  rw [raiseIf_eq]
  rfl

theorem anyHit_iff {m : TrapMode} {p : Posting} {s : State} :
    anyHit m p s = true ↔ ∃ j : Fin 4, (s.wta.traps[j]).hit p = true ∧ (s.wta.traps[j]).mode = m := by
  simp only [anyHit, List.any_eq_true, Vector.mem_toList_iff, Vector.mem_iff_getElem, Bool.and_eq_true,
    decide_eq_true_eq]
  constructor
  · rintro ⟨t, ⟨j, hj, rfl⟩, h⟩
    exact ⟨⟨j, hj⟩, h⟩
  · rintro ⟨j, h⟩
    exact ⟨_, ⟨j.val, j.isLt, rfl⟩, h⟩

theorem absorption_unit {i : Fin 4} {p : Posting} {s : State} (h : AbsorbsNext i p s) :
    absorption i s = finishUnit (.lane i) (absorbPosting p (emptySlot i s)) := by
  obtain ⟨_, h1, h2, h3⟩ := h
  unfold absorption
  rw [h2, h3]
  simp only [unitAt, h1, if_true]

/-- The part of a lane's absorption unit past the windows. -/
def pastWindows (i : Fin 4) (p : Posting) (s : State) : State :=
  (emptySlot i s).setWta { s.wta with traps := countedTraps p s, causes := s.wta.causes ||| trapCause p s }

/-- An absorption unit of a posting that an EXCLUDE window matches (R91). -/
theorem absorption_excluded {i : Fin 4} {p : Posting} {s : State} (h : AbsorbsNext i p s)
    (hx : ∃ j : Fin 4, (s.wta.traps[j]).hit p = true ∧ (s.wta.traps[j]).mode = .exclude) :
    absorption i s = finishUnit (.lane i) (pastWindows i p s) := by
  rw [absorption_unit h]
  unfold absorbPosting
  have e : anyHit .exclude p (emptySlot i s) = true := anyHit_iff.2 hx
  rw [e, matchTraps_eq]
  rfl

/-- An absorption unit of a posting that no EXCLUDE window matches (R91, R92). -/
theorem absorption_kept {i : Fin 4} {p : Posting} {s : State} (h : AbsorbsNext i p s)
    (hx : ∀ j : Fin 4, (s.wta.traps[j]).hit p = true → (s.wta.traps[j]).mode ≠ .exclude) :
    absorption i s = finishUnit (.lane i) (absorbKept p (pastWindows i p s)) := by
  rw [absorption_unit h]
  unfold absorbPosting
  have e : anyHit .exclude p (emptySlot i s) = false := by
    rw [Bool.eq_false_iff]
    intro hh
    obtain ⟨j, h1, h2⟩ := anyHit_iff.1 hh
    exact hx j h1 h2
  rw [e, matchTraps_eq]
  rfl

end Sys2Proof.Machine
end

