-- ==== Sys2Proof/Tests/Slice0.lean ====
section
/-! SUPPORT. Tests on fixed values, their expected results taken from the spec's own examples and tables, and for every
statement with hypotheses a state and operands that meet them. -/

namespace Sys2Proof.Tests

open Sys2Proof Sys2Proof.Machine

/-- The part in RUN on a READY link, the start-up load done, a transaction just opened. -/
def ready : State :=
  { State.reset with
    ctl := { State.reset.ctl with link := .ready, lselLow := true, phase := .command, cell := some ⟨[], false, 0xFF, false⟩ }
    pim := { State.reset.pim with op := .none } }

/-- `ready` with these records. -/
def withTable (rs : List Record) (s : State) : State := { s with rte := { s.rte with table := rs } }

/-- `s` with this command waiting in its open transaction, the RTE serving LINK. -/
def waitingFor (c : Cmd) (ops : List Byte) (s : State) : State :=
  { s with
    ctl := { s.ctl with phase := .waiting, waiting := [⟨c, ops, false⟩] }
    rte := { s.rte with serving := some .link } }

/-- The command answers a next state that meets `p`. -/
def after (i : Instr) (s : State) (p : State → Bool) : Bool :=
  match exec i s with
  | .next t => p t
  | .fault _ | .refused _ => false

/-- The command, taken with these operands, is answered with this status and payload. -/
def answers (c : Cmd) (ops : List Byte) (s : State) (st : Status) (payload : List Byte) : Bool :=
  after (takenRow c (Frame.ofOperands ops)) s fun t => t.ctl.txn.answer = Answer.bytes ⟨st, payload⟩

/-- The served row of a command waiting with these operands answers with this status and payload. -/
def serves (i : Frame → Instr) (c : Cmd) (ops : List Byte) (s : State) (st : Status) (payload : List Byte) : Bool :=
  after (i (Frame.ofOperands ops)) (waitingFor c ops s) fun t => t.ctl.txn.answer = Answer.bytes ⟨st, payload⟩

/-! ## Well-formedness -/

theorem test_frame_length_too_long : (Instr.status ⟨1, []⟩).wellFormed = false := by decide
theorem test_frame_length_above_64_carries_none : (Instr.laneSet ⟨65, [0]⟩).wellFormed = false := by decide
theorem test_frame_of_a_served_row : (Instr.lookup .served ⟨4, [0, 0, 0]⟩).wellFormed = false := by decide
theorem test_unknown_byte_is_unknown : (Instr.unknownCommand 0x20 ⟨0, []⟩).wellFormed = false := by decide
theorem test_unknown_frame_length : (Instr.unknownCommand 0x06 ⟨2, [0]⟩).wellFormed = false := by decide
theorem test_pins_not_empty : (Instr.rawLevelChange ⟨[], []⟩).wellFormed = false := by decide
theorem test_pins_distinct : (Instr.rawLevelChange ⟨[⟨3, 0⟩, ⟨3, 900⟩], []⟩).wellFormed = false := by decide
theorem test_due_distinct : (Instr.rawLevelChange ⟨[⟨3, 0⟩], [4, 4]⟩).wellFormed = false := by decide
theorem test_probes_not_empty : (Instr.qualifiedEdge ⟨[], false⟩).wellFormed = false := by decide
theorem test_probes_distinct : (Instr.qualifiedEdge ⟨[2, 5, 2], false⟩).wellFormed = false := by decide
theorem test_defects_distinct : (Instr.program [(9, 1), (9, 2)]).wellFormed = false := by decide
theorem test_defects_in_the_flash : (Instr.program [(8336, 0)]).wellFormed = false := by decide
theorem test_defects_spare_the_fourth_byte : (Instr.program [(3, 0)]).wellFormed = false := by decide
theorem test_well_formed_rows :
    (Instr.laneEnable ⟨2, [1, 1]⟩).wellFormed = true ∧ (Instr.unknownCommand 0x06 ⟨255, []⟩).wellFormed = true
      ∧ (Instr.rawLevelChange ⟨[⟨0, 0⟩, ⟨15, 900⟩], [0, 4]⟩).wellFormed = true
      ∧ (Instr.program [(0, 1), (8335, 2)]).wellFormed = true := by decide

/-! ## The command bytes (R175) and the table's words -/

theorem test_command_bytes_distinct : (Cmd.all.map Cmd.code).Nodup := by decide
theorem test_command_bytes :
    Cmd.ofByte 0x0F = some .restart ∧ Cmd.ofByte 0x1A = some .laneStatus ∧ Cmd.ofByte 0x26 = some .clearTable
      ∧ Cmd.ofByte 0x34 = some .trapRead ∧ Cmd.ofByte 0x4A = some .profileStatus ∧ Cmd.ofByte 0x06 = none := by decide
theorem test_no_word_spells_a_command : decodeTableWord 8 0x01 = none := rfl
theorem test_reset_is_the_release_of_power_on :
    after .resetRelease (fullReset .powerOn State.reset) (fun t => t = State.reset) = true := by decide +kernel

/-! ## The spec's figures -/

/-- A record as SEED creates it under key 0/0/0. -/
def rec0 : Record := newRecord ⟨0, 0, 0⟩ 2 0

/-- R87: a heat falls by floor(7h/8) each epoch, and a heat of 1 to 7 by exactly 1. -/
theorem test_decayed_heat :
    decayedHeat { rec0 with heat := 40000 } 2 = 30625 ∧ decayedHeat { rec0 with heat := 7 } 3 = 4
      ∧ decayedHeat { rec0 with heat := 65535 } 84 = 0 := by decide +kernel

/-- R9: the table of thresholds, rounded and clamped. -/
theorem test_threshold_codes :
    thresholdCode 3300 = 165 ∧ thresholdCode 1210 = 61 ∧ thresholdCode 1209 = 60 ∧ thresholdCode 190 = 10
      ∧ thresholdCode 0 = 10 ∧ thresholdCode 5009 = 250 ∧ thresholdCode 5010 = 250
      ∧ thresholdCode 65535 = 250 := by decide

/-- 00_scope.md: the key text "L1 050 0A3C" and, in 4-byte form, lane at bits 31-30 and target at bits 25-16 (R196). -/
theorem test_key_text :
    Key.text ⟨1, 0x050, 0x0A3C⟩ = codes "L1 050 0A3C".toList ∧ Key.bytes ⟨1, 0x050, 0x0A3C⟩ = [0x40, 0x50, 0x0A, 0x3C]
      ∧ keyOf [0x7C, 0x50, 0x0A, 0x3C] = ⟨1, 0x050, 0x0A3C⟩ := by decide

/-- R140: the value text of the three formats. -/
theorem test_value_text :
    valueText .hex 4 0x0012ABCD = codes "0x0012ABCD".toList
      ∧ valueText .binary 2 0x0100 = codes "00000001 00000000".toList
      ∧ valueText .decimal 4 0xFFFFFFFF = codes "4294967295".toList
      ∧ valueText .binary 4 0x5A = codes "0x0000005A".toList := by decide

/-- R141: with window 4, a value changed at epoch 200 is marked in rows written at epochs 200 to 203, not at 204. -/
theorem test_marker :
    marker 4 203 { rec0 with lastChange := some 200 } = 0x2A ∧ marker 4 204 { rec0 with lastChange := some 200 } = 0x20
      ∧ marker 0 200 { rec0 with lastChange := some 200 } = 0x20
      ∧ marker 4 9 { rec0 with mismatched := true, unverified := true } = 0x21 := by decide

/-- R140, R143, R145: a row's five fields, a PROBE row and the header. -/
theorem test_lines :
    recordText .hex 4 9 false { rec0 with seen := some ⟨0x0100, .write⟩, changes := 7 }
        = codes " L0 000 0000  0x0100                   7".toList
      ∧ probeText 3 { Probe.reset with level := true, edgesLast := 120, glitch := true }
        = codes "gP03          H 120                     ".toList
      ∧ headerText false State.reset = codes "     0000/1024 -.-.-.-. W00             ".toList := by decide

/-! ## Commands on the link: answers by R176, R182 and R198 -/

theorem test_identify :
    answers .identify [] ready .ok [0x4C, 0x44, 0x4E, 0x57, 0x02, 0x6C, 1, 1, 4, 0, 4, 16, 8, 4, 16] = true := by decide
theorem test_identify_held :
    after (.identify ⟨0, []⟩) { ready with ctl := { ready.ctl with link := .held } } (fun t => t.ctl.txn.answer =
      [0xC3, 0, 0, 15, 0x4C, 0x44, 0x4E, 0x57, 0x02, 0x6C, 1, 0, 4, 0, 4, 16, 8, 4, 16]) = true := by decide
theorem test_release :
    answers .release [] { ready with ctl := { ready.ctl with record := ⟨.resetPin, .blank, 0, 0⟩ } } .ok
      [1, 1, 0, 0, 0, 0] = true := by decide
theorem test_release_waits_for_the_load :
    after (.release ⟨0, []⟩) { ready with pim := State.reset.pim } (fun t =>
      t.ctl.phase = .waiting && t.ctl.waiting = [⟨.release, [], false⟩]) = true := by decide
theorem test_status :
    answers .status [] { ready with wta := { ready.wta with causes := 0x102, enables := 0x042 } } .ok
      [1, 2, 0, 0x42, 1, 0, 0, 0] = true := by decide
theorem test_status_counts_pending_slots :
    answers .status [] { ready with wta := { ready.wta with slots := ready.wta.slots.set 7 (.detached ⟨0, 0, 0⟩ none false none) } }
      .ok [0, 1, 0, 0, 1, 0, 0, 0] = true := by decide
theorem test_acknowledge_empties_the_capture :
    after (.acknowledge ⟨2, [0x00, 0x10]⟩)
      { ready with wta := { ready.wta with causes := 0x011 }, rte := { ready.rte with capture := some (⟨0, 0, 0⟩, 9) } }
      (fun t => t.wta.causes = 0x001 && t.rte.capture = none) = true := by decide
theorem test_acknowledge_refuses_bit_9 : answers .acknowledge [0x02, 0x00] ready .badOperand [] = true := by decide
theorem test_attn_enable :
    after (.attnEnable ⟨2, [0x01, 0xFF]⟩) ready (fun t => t.wta.enables = 0x1FF) = true := by decide
theorem test_restart_waits_for_the_rise :
    after (.restart ⟨0, []⟩) ready (fun t => t.ctl.txn.restarts && !t.inReset) = true := by decide
theorem test_probe_set : answers .probeSet [1, 0x04, 0xBA, 16] ready .ok [1, 61, 0x04, 0xC4, 15] = true := by decide
theorem test_probe_set_refuses_bank_2 : answers .probeSet [2, 0, 0, 0] ready .badOperand [] = true := by decide
theorem test_probe_read :
    serves (.probeRead .served) .probeRead [0] ready .ok
      ([0, 0, 0, 0] ++ [80, 0x06, 0x40, 2, 80, 0x06, 0x40, 2] ++ List.replicate 80 0) = true := by decide
theorem test_probe_read_notes_glitches :
    after (.probeRead .served ⟨1, [1]⟩) (waitingFor .probeRead [1]
        { ready with pfe := { ready.pfe with probes := ready.pfe.probes.set 15 { Probe.reset with glitch := true } } })
      (fun t => t.pfe.probes[15].clearNote && t.pfe.probes[15].glitch && !t.pfe.probes[14].clearNote) = true := by decide

/-- The LANE-SET operands of the lane of 3.8. -/
def laneOps : List Byte := [0, 1, 2, 1, 0, 1, 0, 0, 0, 1, 0, 0, 0, 32, 0, 1, 0, 0, 0, 0, 0, 0, 0, 0, 0]
theorem test_lane_set :
    after (.laneSet ⟨25, laneOps⟩) ready (fun t => t.lanes[0].cfg.kind = .twoWire && t.lanes[0].cfg.w = 2
      && t.lanes[0].state = .off && t.lanes[0].request = some .retirement && t.ctl.phase = .waiting) = true := by decide
theorem test_lane_set_refuses_kind_4_and_one_probe_twice :
    (answers .laneSet (laneOps.set 1 4) ready .badOperand [] && answers .laneSet (laneOps.set 15 0) ready .badOperand [])
      = true := by decide
theorem test_lane_status :
    serves (.laneStatus .served) .laneStatus [1, 1]
      { ready with lanes := ready.lanes.set 1 { Lane.reset with flags := 0x101 } } .ok
      ([0, 0] ++ [0, 1, 1, 0, 0, 0, 0, 0, 1, 0, 0, 0, 32] ++ List.replicate 11 0 ++ [1, 1, 0, 0]) = true := by decide
theorem test_lookup :
    serves (.lookup .served) .lookup [0x40, 0x03, 0x00, 0x07]
      { withTable [{ newRecord ⟨1, 3, 7⟩ 2 5 with
          seen := some ⟨0x1234, .read⟩, written := some 0x1200, changes := 2, heat := 40000, lastChange := some 6
          label := some [0x41, 0x42], watch := some 5, diverged := true }]
        { ready with rte := { ready.rte with epoch := 7 } } with pim := ready.pim } .ok
      ([0x40, 3, 0, 7, 2, 0xE3, 0x09, 0x25] ++ [0, 0, 0x12, 0x34, 0, 0, 0x12, 0] ++ List.replicate 12 0
        ++ [0x41, 0x42] ++ List.replicate 10 0x20 ++ [0x77, 0xA1, 0, 2, 0, 1, 0, 2]) = true := by decide
theorem test_lookup_of_nothing :
    serves (.lookup .served) .lookup [0, 0, 0, 0] ready .noRecord [] = true := by decide
theorem test_walk :
    after (.walk .served ⟨1, [1]⟩) (waitingFor .walk [1] (withTable [rec0, newRecord ⟨0, 0, 9⟩ 2 0] ready))
      (fun t => t.ctl.txn.answer.take 6 = [0xC3, 0, 0, 50, 1, 0] && t.rte.walkNote = some ⟨0, 0, 1⟩) = true := by decide
theorem test_walk_of_none : serves (.walk .served) .walk [0] ready .badOperand [] = true := by decide
theorem test_walk_from :
    after (.walkFrom .served ⟨4, [0xC3, 0xFF, 0xFF, 0xFF]⟩) (waitingFor .walkFrom [0xC3, 0xFF, 0xFF, 0xFF] ready)
      (fun t => t.rte.cursor = ⟨3, 1023, 65535⟩) = true := by decide

/-- Lane 0 as in 3.8. -/
def lane0 : Lane :=
  { Lane.reset with
    cfg := { LaneConfig.reset with kind := .twoWire, w := 2, activity := true, pins := { PinMap.reset with twoData := 1 } }
    enabled := true, state := .idle }
/-- `ready` with this lane as lane `i`. -/
def withLane (i : Fin 4) (l : Lane) (s : State) : State := { s with lanes := s.lanes.set i l }

theorem test_lane_enable :
    after (.laneEnable ⟨2, [0, 1]⟩) (withLane 0 { lane0 with enabled := false, state := .off } ready) (fun t =>
      t.lanes[0].enabled && t.lanes[0].state = .seeking && t.lanes[0].request = some .marking) = true := by decide
theorem test_seed_creates :
    after (.seed .served ⟨4, [0, 0x7F, 0, 0xFF]⟩) (waitingFor .seed [0, 0x7F, 0, 0xFF] (withLane 0 lane0 ready))
      (fun t => t.rte.table = [newRecord ⟨0, 127, 255⟩ 2 0] && t.ctl.txn.answer = [0xC3, 0, 0, 1, 1]) = true := by decide
theorem test_seed_needs_a_fitting_key :
    serves (.seed .served) .seed [0, 0x80, 0, 0] (withLane 0 lane0 ready) .badOperand [] = true := by decide
theorem test_amend_tests_the_expectation :
    after (.amend .served ⟨27, [0, 0, 0, 0, 0, 4, 0] ++ List.replicate 12 0 ++ [0xFF, 0xFF, 0x12, 0x35, 0xFF, 0xFF, 0, 0xFF]⟩)
      (waitingFor .amend ([0, 0, 0, 0, 0, 4, 0] ++ List.replicate 12 0 ++ [0xFF, 0xFF, 0x12, 0x35, 0xFF, 0xFF, 0, 0xFF])
        (withTable [{ rec0 with seen := some ⟨0x1234, .write⟩ }] ready))
      (fun t => t.rte.table.map (·.expectation) = [some ⟨0x1235, 0xFF⟩] && t.rte.table.map (·.mismatched) = [true]
        && t.wta.causes = 0x002) = true := by decide
theorem test_amend_refuses_set_and_clear :
    serves (.amend .served) .amend ([0, 0, 0, 0, 0, 0x30] ++ List.replicate 21 0) (withTable [rec0] ready) .badOperand []
      = true := by decide
theorem test_retire_detaches :
    after (.retire .served ⟨4, [0, 0, 0, 0]⟩) (waitingFor .retire [0, 0, 0, 0] (withTable [{ rec0 with watch := some 2, pinned := true }]
        { ready with wta := { ready.wta with slots := ready.wta.slots.set 2 (.pending ⟨0, 0, 0⟩ 7 true none) } }))
      (fun t => t.rte.table = [] && t.wta.slots[2] = .detached ⟨0, 0, 0⟩ (some 7) true none) = true := by decide
theorem test_clear_table_spares_the_pinned :
    after (.clearTable .served ⟨1, [0]⟩) (waitingFor .clearTable [0]
        (withTable [rec0, { newRecord ⟨0, 0, 9⟩ 2 0 with pinned := true }] ready))
      (fun t => t.rte.table.map (·.key.register) = [9] && t.ctl.txn.answer = [0xC3, 0, 0, 2, 0, 1]) = true := by decide
theorem test_table_info :
    serves (.tableInfo .served) .tableInfo []
      { ready with rte := { ready.rte with epoch := 258, capture := some (⟨1, 0, 2⟩, 257) } } .ok
      [0, 0, 0, 0, 1, 2, 0, 0, 0, 0, 0, 1, 0x40, 0, 0, 2, 0, 0, 1, 1] = true := by decide
theorem test_hold_off_drops_the_held :
    after (.hold .served ⟨1, [0]⟩) (waitingFor .hold [0] (withTable [{ rec0 with held := some (.value 3) }]
        { ready with rte := { ready.rte with hold := true } }))
      (fun t => t.rte.table = [rec0] && !t.rte.hold && t.wta.causes = 0) = true := by decide
theorem test_watch_set :
    after (.watchSet .served ⟨5, [7, 0, 0, 0, 0]⟩) (waitingFor .watchSet [7, 0, 0, 0, 0] (withTable [rec0] ready))
      (fun t => t.wta.slots[7] = .armed ⟨0, 0, 0⟩ && t.rte.table = [{ rec0 with watch := some 7 }]) = true := by decide
theorem test_watch_set_already :
    serves (.watchSet .served) .watchSet [0, 0, 0, 0, 0] (withTable [{ rec0 with watch := some 7 }] ready) .already []
      = true := by decide
theorem test_watch_free :
    after (.watchFree ⟨1, [0]⟩) (withTable [{ rec0 with watch := some 0 }]
        { ready with wta := { ready.wta with slots := ready.wta.slots.set 0 (.armed ⟨0, 0, 0⟩) } })
      (fun t => t.wta.slots[0] = .free && t.rte.table = [rec0] && t.ctl.txn.answer = [0xC3, 0, 0, 1, 1]) = true := by decide
theorem test_take_watch :
    answers .takeWatch [3] { ready with wta := { ready.wta with
        slots := ready.wta.slots.set 3 (.detached ⟨2, 3, 4⟩ (some 0x1140) true none) } } .ok
      [0x80, 3, 0, 4, 0, 0, 0x11, 0x40, 7] = true := by decide
theorem test_take_watch_of_nothing :
    answers .takeWatch [3] { ready with wta := { ready.wta with slots := ready.wta.slots.set 3 (.armed ⟨2, 3, 4⟩) } }
      .nothing [] = true := by decide
theorem test_trap_set :
    after (.trapSet .served ⟨10, [3, 2, 1, 0x03, 0xFF, 0, 5, 0, 5, 1]⟩)
      (waitingFor .trapSet [3, 2, 1, 0x03, 0xFF, 0, 5, 0, 5, 1] ready)
      (fun t => t.wta.traps[3] = ⟨.exclude, 1, 1023, 5, 5, .read, 0, none, none⟩) = true := by decide
theorem test_trap_read :
    answers .trapRead [2, 0] { ready with wta := { ready.wta with
        traps := ready.wta.traps.set 2 ⟨.notify, 1, 0x102, 3, 0x104, .both, 258, some ⟨1, 0x102, 3⟩, none⟩ } } .ok
      [1, 1, 1, 2, 0, 3, 1, 4, 2, 1, 2, 1, 0x41, 2, 0, 3] = true := by decide
theorem test_view_set :
    answers .viewSet [16, 2, 1, 0, 0, 0, 15] ready .ok [16, 2, 1, 0, 0, 0, 15] = true := by decide
theorem test_view_set_refuses_probe_16 :
    answers .viewSet [1, 2, 1, 0, 0, 0, 16] ready .badOperand [] = true := by decide
theorem test_view_options_clamps : answers .viewOptions [16] ready .ok [15] = true := by decide
theorem test_panel_set : answers .panelSet [9, 255] ready .ok [9, 15] = true := by decide
theorem test_power_set :
    after (.powerSet ⟨25, [1, 0, 0, 5, 0, 6] ++ List.replicate 15 0 ++ [3, 0, 1, 1]⟩) ready
      (fun t => t.pwu.dim = 255 && t.pwu.timer = some (.dim, 255) && t.pwu.wakeEdges[15] = .either && !t.pwu.holdkeyWake
        && t.ctl.txn.answer.drop 4 = [0, 255, 0, 5, 0, 6] ++ List.replicate 15 0 ++ [3, 0, 1, 1]) = true := by decide
theorem test_power_set_refuses_edge_4 :
    answers .powerSet ([0, 0, 0, 0, 0, 0, 4] ++ List.replicate 18 0) ready .badOperand [] = true := by decide
theorem test_power_status :
    answers .powerStatus [0] { ready with pwu := { ready.pwu with wakePending := ⟨0x8001, true, true⟩ } } .ok
      ([0, 3, 0x80, 0x01, 0, 30, 0, 60, 0, 0] ++ List.replicate 16 0 ++ [1, 1, 1]) = true := by decide
theorem test_sleep_busy_during_a_store :
    serves (.sleep .served) .sleep [] { ready with pim := { ready.pim with op := .store .erase } } .busy [] = true := by
  decide
theorem test_profile_load :
    after (.profileLoad ⟨1, [1]⟩) ready (fun t => t.pim.op = .load (Load.start .all)) = true := by decide
theorem test_profile_store_writes_the_header :
    after (.profileStore ⟨0, []⟩) ready (fun t =>
      t.pim.image.bytes.take 9 = [0x4E, 0x57, 0xB1, 0xA8, 1, 0, 0, 0, 128] && t.pim.image.bytes.length = 144
        && byteSum t.pim.image.bytes = 0 && t.pim.op = .store .invalidate) = true := by decide +kernel
theorem test_profile_status :
    answers .profileStatus [] { ready with pim := { ready.pim with op := .store .verify, last := some (.load .all .valid 3 2) } }
      .ok [4, 3, 0, 0, 0, 0, 0, 0, 1, 2, 0, 0, 3, 0, 2, 0] = true := by decide
theorem test_unknown_command :
    after (.unknownCommand 0x06 ⟨0, []⟩) ready (fun t => t.ctl.txn.answer = [0xC3, 2, 0, 0]) = true := by decide


/-! ## Worked examples of the buses (3.8, 4.9, 5.5) -/

/-- The bits of a two-wire byte with its acknowledge bit. -/
def wireByte (b : Byte) (nack : Bool) : List Bool := byteBits b ++ [nack]

/-- 3.8, frame 1: 0x90, 0x05, 0x12, 0x34, 0xAB, each with ACK. -/
theorem test_two_wire_write :
    ((wireByte 0x90 false ++ wireByte 0x05 false ++ wireByte 0x12 false ++ wireByte 0x34 false ++ wireByte 0xAB false).foldl
      (fun (l : Lane) b => l.twoBit 0 b) { lane0 with state := .inFrame })
      = { lane0 with
          state := .inFrame, slot := some ⟨⟨0, 0x48, 0x05⟩, .write, 0x1234, 2⟩, pointers := [(0x48, 0x06)]
          two := ⟨[], none, .data 0x48 .write [0xAB], none⟩ } := by decide +kernel
/-- 3.8, frame 2 after its repeated start: 0x91 ACK, 0x12 ACK, 0x35 NACK; and frame 3: 0x99 ACK names no pointer. -/
theorem test_two_wire_reads :
    ((wireByte 0x91 false ++ wireByte 0x12 false ++ wireByte 0x35 true).foldl (fun (l : Lane) b => l.twoBit 0 b)
        { lane0 with state := .inFrame, pointers := [(0x48, 0x05)] }).slot
        = some ⟨⟨0, 0x48, 0x05⟩, .read, 0x1235, 2⟩
      ∧ ((wireByte 0x99 false).foldl (fun (l : Lane) b => l.twoBit 0 b)
        { lane0 with state := .inFrame, pointers := [(0x48, 0x06)] }).flags = 0x008 := by decide +kernel

/-- Lane 1 as in 4.9. -/
def lane1 : Lane :=
  { Lane.reset with
    cfg := { LaneConfig.reset with
      kind := .fourWire, w := 2, byteOrder := .little, activity := true, selectCount := 2, autoinc := .flag, latency := 1 }
    enabled := true, state := .inFrame, four := ⟨true, [], [], 1, .command []⟩ }
/-- 4.9, frame 1: 0x45, 0x34, 0x12 on CDAT; and frame 2: 0x85 on CDAT, then 0xFF, 0x34, 0x12 on TDAT. -/
theorem test_four_wire_frames :
    ((byteBits 0x45 ++ byteBits 0x34 ++ byteBits 0x12).foldl (fun l b => l.fourBit 1 b false) lane1)
        = { lane1 with
            slot := some ⟨⟨1, 1, 0x05⟩, .write, 0x1234, 2⟩, four := ⟨true, [], [], 1, .data ⟨.write, true, 0x06⟩ []⟩ }
      ∧ (((byteBits 0x85 ++ byteBits 0 ++ byteBits 0 ++ byteBits 0).zip
          (byteBits 0 ++ byteBits 0xFF ++ byteBits 0x34 ++ byteBits 0x12)).foldl (fun l x => l.fourBit 1 x.1 x.2) lane1)
        = { lane1 with
            slot := some ⟨⟨1, 1, 0x05⟩, .read, 0x1234, 2⟩, four := ⟨true, [], [], 1, .data ⟨.read, false, 0x05⟩ []⟩ } := by
  decide +kernel

/-- Lane 2 as in 5.5. -/
def lane2 : Lane :=
  { Lane.reset with
    cfg := { LaneConfig.reset with kind := .management, w := 2, activity := true }
    enabled := true, state := .seeking }
/-- 5.5, frame 1 from SEEKING: 32 ones, 0, 1, 0, 1, device 3, register 4, 1, 0, 0x1140. -/
theorem test_management_write :
    ((List.replicate 32 true ++ [false, true, false, true] ++ [false, false, false, true, true]
        ++ [false, false, true, false, false] ++ [true, false] ++ byteBits 0x11 ++ byteBits 0x40).foldl
      (fun l b => (l.mgmtBit 2 b).lane) lane2)
      = { lane2 with state := .idle, slot := some ⟨⟨2, 3, 4⟩, .write, 0x1140, 2⟩ } := by decide +kernel
/-- 5.5, frame 3: device 5, register 1, turnaround 1, 1; then the 16 released data periods and 16 ones. -/
theorem test_management_silent_device :
    (([true, true, false] ++ [false, false, true, false, true] ++ [false, false, false, false, true] ++ [true, true]
        ++ List.replicate 32 true).foldl (fun l b => (l.mgmtBit 2 b).lane)
        { lane2 with state := .idle, mgmt := ⟨32, true, .operation []⟩ })
      = { lane2 with state := .idle, flags := 0x080, mgmt := ⟨32, false, .operation []⟩ } := by decide +kernel

/-! ## Events -/

/-- `s` with another power state. -/
def inPower (p : PowerState) (op : PowerOp) (s : State) : State := { s with pwu := { s.pwu with power := p, op := op } }
/-- `s` with this unit being served. -/
def servingAt (p : Position) (s : State) : State := { s with rte := { s.rte with serving := some p } }
/-- `s` with this profile operation in flight. -/
def inOp (op : ProfileOp) (s : State) : State := { s with pim := { s.pim with op := op } }
/-- `s` with this flash. -/
def withFlash (m : Flash) (s : State) : State := { s with pim := { s.pim with flash := m } }
/-- `s` with the panel ON. -/
def panelOn (s : State) : State := { s with dse := { s.dse with panelOn := true, refreshTimer := some 100 } }
/-- `s` with LSEL high and no transaction. -/
def lselHigh (s : State) : State := { s with ctl := { s.ctl with lselLow := false, phase := .closed, cell := none } }

theorem test_lsel_fall_wakes :
    after .lselFallingEdge (lselHigh (inPower .sleep .none ready)) (fun t =>
      t.pwu.op = .wake && t.pwu.wakePending = ⟨0, false, true⟩ && t.ctl.phase = .command) = true := by decide
theorem test_lsel_rise_cuts :
    after .lselRisingEdge (waitingFor .retire [0, 0, 0, 0] ready) (fun t =>
      t.ctl.waiting = [⟨.retire, [0, 0, 0, 0], true⟩] && t.ctl.phase = .closed && t.ldo = none) = true := by decide
theorem test_restart_resets_at_the_rise :
    after .lselRisingEdge { ready with ctl := { ready.ctl with txn := { Txn.empty with restarts := true } } }
      (fun t => t.inReset && t.ctl.record.cause = .command) = true := by decide
theorem test_delivery_arms_the_slot :
    after .completeDelivery
      { ready with
        wta := { ready.wta with slots := ready.wta.slots.set 1 (.pending ⟨0, 0, 0⟩ 5 true (some ⟨false, none⟩)) }
        ctl := { ready.ctl with phase := .answer, txn := { Txn.empty with
          command := some 0x32, operands := [1], answer := [0xC3, 0, 0, 9, 0, 0, 0, 0, 0, 0, 0, 5, 3] } } }
      (fun t => t.wta.slots[1] = .armed ⟨0, 0, 0⟩ && t.ctl.phase = .trailer && t.ctl.cell = some ⟨[], true, 3, true⟩) = true := by decide
theorem test_threshold_is_1600_mV :
    (after (.rawLevelChange ⟨[⟨7, 1600⟩], []⟩) ready (fun t => t.pfe.probes[7].candidate = some ⟨true, 2⟩)
      && after (.rawLevelChange ⟨[⟨7, 1599⟩], []⟩) ready (fun t => t.pfe.probes[7].candidate = none)) = true := by decide
theorem test_glitch :
    after (.rawLevelChange ⟨[⟨7, 0⟩], []⟩)
      { ready with pfe := { ready.pfe with
          pins := ready.pfe.pins.set 7 1600, probes := ready.pfe.probes.set 7 { Probe.reset with candidate := some ⟨true, 2⟩ } } }
      (fun t => t.pfe.probes[7] = { Probe.reset with glitch := true }) = true := by decide
theorem test_qualified_edge :
    after (.qualifiedEdge ⟨[7], false⟩)
      { ready with pfe := { ready.pfe with
          pins := ready.pfe.pins.set 7 1600, probes := ready.pfe.probes.set 7 { Probe.reset with candidate := some ⟨true, 2⟩ } } }
      (fun t => t.pfe.probes[7] = { Probe.reset with level := true, edgesNow := 1 }) = true := by decide
theorem test_absorption_creates_a_record :
    after (.absorption 0) (servingAt (.lane 0) (withLane 0 { lane0 with slot := some ⟨⟨0, 0x48, 5⟩, .write, 0x1234, 2⟩ } ready))
      (fun t => t.rte.table = [{ newRecord ⟨0, 0x48, 5⟩ 2 0 with
          seen := some ⟨0x1234, .write⟩, written := some 0x1234, heat := 4096, lastChange := some 0, changes := 1 }]
        && t.lanes[0].slot = none) = true := by decide +kernel
/-- The READ of 3.8, frame 2 diverges from the WRITE of frame 1 (R96). -/
theorem test_absorption_diverges :
    after (.absorption 0) (servingAt (.lane 0) (withLane 0 { lane0 with slot := some ⟨⟨0, 0x48, 5⟩, .read, 0x1235, 2⟩ }
        (withTable [{ newRecord ⟨0, 0x48, 5⟩ 2 0 with
          seen := some ⟨0x1234, .write⟩, written := some 0x1234, heat := 4096, changes := 1, notify := true }] ready)))
      (fun t => t.rte.table.map (·.diverged) = [true] && t.rte.table.map (·.heat) = [6144] && t.wta.causes = 0x004
        && t.rte.table.map (·.written) = [some 0x1234]) = true := by decide
theorem test_marking :
    after (.marking 0) (servingAt (.lane 0) (withLane 0 { lane0 with request := some .marking }
        (withTable [{ rec0 with seen := some ⟨1, .read⟩ }, newRecord ⟨0, 0, 1⟩ 2 0, newRecord ⟨1, 0, 0⟩ 2 0] ready)))
      (fun t => t.rte.table.map (·.unverified) = [true, false, false] && t.lanes[0].request = none) = true := by decide
theorem test_retirement :
    after (.retirement 0) (servingAt (.lane 0) (withLane 0 { lane0 with request := some .retirement }
        (withTable [{ rec0 with pinned := true }, newRecord ⟨1, 0, 0⟩ 2 0] ready)))
      (fun t => t.rte.table = [newRecord ⟨1, 0, 0⟩ 2 0]) = true := by decide

/-- A refresh with one AUTO row at row 1, in this phase. -/
def oneAuto (ph : RefreshPhase) : Refresh :=
  ⟨(Vector.replicate 16 ⟨.empty, .hex, false⟩).set 0 ⟨.auto, .hex, false⟩, 4, false, false, ph⟩
theorem test_ranking_slice :
    after .rankingSlice (servingAt .display
        (withTable [rec0, { newRecord ⟨0, 0, 1⟩ 2 0 with heat := 8 }, { newRecord ⟨0, 0, 2⟩ 2 0 with heat := 9 }]
          { ready with dse := { ready.dse with refresh := some (oneAuto (.ranking ⟨0, 0, 0⟩ [])) } }))
      (fun t => t.dse.refresh = some (oneAuto (.drawing [(0, .auto ⟨0, 0, 2⟩)] []))) = true := by decide
theorem test_drawing_slice_sends_what_differs :
    after .drawingSlice (servingAt .display
        { ready with dse := { ready.dse with refresh := some (oneAuto (.drawing [] [])) } })
      (fun t => t.dse.port = [.line 0 (codes "     0000/1024 -.-.-.-. W00             ".toList)]
        && t.dse.refresh = some (oneAuto .sending)) = true := by decide +kernel
theorem test_settings_block :
    after .settingsBlock (servingAt .profile (inOp (.load { Load.start .all with stage := .settings })
        (withFlash (Flash.writeAll [] 0 ([0x4E, 0x57, 0xB1, 0xA8, 1, 0, 1, 0, 128, 0] ++ List.replicate 6 0
          ++ [5, 16, 100, 0] ++ List.replicate 124 0)) ready)))
      (fun t => t.pfe.banks[0] = ⟨10, 15⟩ && t.pfe.banks[1] = ⟨100, 0⟩ && t.pwu.dim = 0 && t.dse.rows[0].binding = .empty
        && t.pim.op = .load { Load.start .all with stage := .seeding }) = true := by decide +kernel
theorem test_seed_application :
    after .seedApplication (servingAt .profile (inOp (.load { Load.start .seeds with stage := .seeding })
        (withFlash (Flash.writeAll (Flash.writeAll [] 5 [0, 2]) 144
          ([0, 0x48, 0, 5, 2, 1, 0] ++ List.replicate 8 0 ++ [2, 0x41, 0x42])) (withLane 0 lane0 ready))))
      (fun t => t.rte.table = [{ newRecord ⟨0, 0x48, 5⟩ 2 0 with pinned := true, label := some [0x41, 0x42] }]
        && t.pim.op = .load { Load.start .seeds with stage := .seeding, next := 1, loaded := 1, keys := [⟨0, 0x48, 5⟩] })
      = true := by decide +kernel
theorem test_blank_image :
    after .imageJudgement State.reset (fun t => t.ctl.record = ⟨.powerOn, .blank, 0, 0⟩ && t.pim.op = .none
      && t.wta.causes = 0x040 && t.dse.port = [.panelOn] && t.dse.panelOn) = true := by decide +kernel
/-- The image a store composes is VALID (R188, R193). -/
theorem test_stored_image_is_valid :
    (Flash.writeAll [] 0 ready.storeImage.bytes).judge = .valid := by decide +kernel
theorem test_invalidate :
    after .invalidate (inOp (.store .invalidate) ready) (fun t =>
      t.pim.flash = [(3, 0x00)] && t.pim.op = .store .erase) = true := by decide
theorem test_erase :
    after .erase (inOp (.store .erase) { ready with pim := { ready.pim with
        flash := [(2, 0xB1), (3, 0), (4, 1), (8335, 7), (8336, 7)] } }) (fun t =>
      t.pim.flash = [(2, 0xB1), (3, 0), (8336, 7)] && t.pim.op = .store .program) = true := by decide
theorem test_program_spares_the_fourth_byte :
    after (.program []) (inOp (.store .program) { ready with pim := { ready.pim with
        flash := [(3, 0)], image := ⟨[0x4E, 0x57, 0xB1, 0xA8, 1], 0, false⟩ } }) (fun t =>
      t.pim.flash = [(0, 0x4E), (1, 0x57), (2, 0xB1), (3, 0), (4, 1)]) = true := by decide
theorem test_verify_finds_a_difference :
    after .verify (inOp (.store .verify) { ready with pim := { ready.pim with
        flash := [(0, 0x4E), (1, 0x57), (2, 0xB1), (3, 0), (4, 2)], image := ⟨[0x4E, 0x57, 0xB1, 0xA8, 1], 0, false⟩ } })
      (fun t => t.pim.op = .none && t.pim.last = some (.store true 0 false) && t.wta.causes = 0x040) = true := by decide
theorem test_commit :
    after .commit (inOp (.store .commit) { ready with pim := { ready.pim with flash := [(3, 0)] } }) (fun t =>
      t.pim.flash = [(3, 0xA8)] && t.pim.last = some (.store false 0 false)) = true := by decide
theorem test_epoch_expiry_saturates :
    after .epochExpiry { ready with
        rte := { ready.rte with epoch := 4294967295 }
        pfe := { ready.pfe with probes := ready.pfe.probes.set 0 ⟨true, 9, 4, true, some ⟨false, 1⟩, false, none⟩ } }
      (fun t => t.rte.epoch = 4294967295 && t.pfe.probes[0] = ⟨true, 0, 9, true, some ⟨false, 1⟩, false, none⟩) = true := by
  decide
theorem test_dim_expiry :
    after .dimTimerExpiry (panelOn ready) (fun t =>
      t.pwu.power = .dim && t.pwu.timer = some (.dark, 60) && t.dse.refreshTimer = some 500) = true := by decide
theorem test_dark_expiry :
    after .darkTimerExpiry { panelOn (inPower .dim .none ready) with
        pwu := { ready.pwu with power := .dim, timer := some (.dark, 60), sleep := 255 } }
      (fun t => t.pwu.power = .dark && t.pwu.timer = some (.sleep, 255) && !t.dse.panelOn && t.dse.port = [.panelOff])
      = true := by decide
theorem test_sleep_expiry_defers :
    after .sleepTimerExpiry (inOp (.store .erase)
        { ready with pwu := { ready.pwu with power := .dark, timer := some (.sleep, 1) } })
      (fun t => t.pwu.deferred && t.pwu.op = .none && t.pwu.timer = none) = true := by decide
theorem test_sleep_entry_completes :
    after .sleepEntryCompletion (lselHigh (inPower .dark .sleepEntry
        { ready with pwu := { ready.pwu with wakeEdges := ready.pwu.wakeEdges.set 4 .rising } }))
      (fun t => t.pwu.power = .sleep && t.pwu.op = .none && !t.rte.epochTimer
        && t.pfe.probes[4].wake = some ⟨false, none⟩ && t.pfe.probes[5].wake = none) = true := by decide
theorem test_wake_side_edge :
    after (.wakeSideEdge 4) { inPower .sleep .none ready with
        pwu := { ready.pwu with power := .sleep, wakeEdges := ready.pwu.wakeEdges.set 4 .rising }
        pfe := { ready.pfe with probes := ready.pfe.probes.set 4 { Probe.reset with wake := some ⟨false, some ⟨true, 2⟩⟩ } } }
      (fun t => t.pwu.op = .wake && t.pwu.wakePending = ⟨0x0010, false, false⟩
        && t.pfe.probes[4].wake = some ⟨true, none⟩) = true := by decide
theorem test_wake_completion :
    after .wakeCompletion (inPower .sleep .wake
        { withLane 0 { lane0 with state := .seeking } ready with
          rte := { ready.rte with epochTimer := false }, pfe := { ready.pfe with pins := ready.pfe.pins.set 9 1600 } })
      (fun t => t.pwu.power = .run && t.pwu.timer = some (.dim, 30) && t.rte.epochTimer && t.pfe.probes[9].level
        && t.lanes[0].request = some .marking && t.wta.causes = 0x080 && t.dse.panelOn) = true := by decide
theorem test_refresh_expiry :
    after .refreshExpiry (panelOn ready) (fun t => t.dse.refresh.map (·.phase) = some (.ranking ⟨0, 0, 0⟩ [])) = true := by
  decide
theorem test_line_ends_the_refresh :
    after .line { ready with dse := { ready.dse with
        port := [.line 16 [0x41], .panelOff], refresh := some (oneAuto .sending) } }
      (fun t => t.dse.refresh = none && t.dse.lastSent[16] = [0x41] && t.dse.port = [.panelOff]) = true := by decide
theorem test_holdkey_starts_a_candidate :
    after (.holdkeyChange true) ready (fun t => t.pwu.keyLow && t.pwu.keyCandidate = some ⟨true, false⟩) = true := by decide
theorem test_key_press_toggles_hold :
    after .debounceExpiry { ready with pwu := { ready.pwu with keyCandidate := some ⟨true, false⟩ } }
      (fun t => t.rte.hold && t.wta.causes = 0x100 && t.pwu.keyPressed) = true := by decide
theorem test_key_from_reset_is_no_press :
    after .debounceExpiry { ready with pwu := { ready.pwu with keyCandidate := some ⟨true, true⟩ } }
      (fun t => !t.rte.hold && t.wta.causes = 0 && t.pwu.keyPressed) = true := by decide
theorem test_resets :
    (after .powerOn ready (fun t => t.inReset && t.ctl.record.cause = .powerOn && t.ctl.link = .held)
      && after .resetPin ready (fun t => t.ctl.record.cause = .resetPin && t.rte.epochTimer = false)
      && after .supplyLow (inPower .sleep .wake ready) (fun t => t.ctl.record.cause = .supplyLow && t.pwu.power = .run))
      = true := by decide
/-- R172: LDO carries 0xC3 most significant bit first, the answer's first cell after WAIT cells. -/
theorem test_byte_cell_sends_wait_then_start :
    after (.byteCell (.whole 0x55)) { waitingFor .lookup [0, 0, 0, 0] ready with
        ctl := { (waitingFor .lookup [0, 0, 0, 0] ready).ctl with cell := some ⟨[], true, 0xFF, false⟩ } }
      (fun t => t.ctl.cell = some ⟨[], true, 0x00, false⟩) = true
      ∧ ((List.range 8).map fun n => Cell.ldo ⟨List.replicate n true, false, 0xC3, true⟩)
        = [true, true, false, false, false, false, true, true] := by decide
/-- R172, R176: an answer composed inside a WAIT cell begins in the next cell. -/
theorem test_start_follows_the_cell_in_progress :
    (match runAll [.byteCell (.whole 0), .byteCell .fall]
        { ready with ctl := { ready.ctl with
          phase := .answer, cell := some ⟨[true, false], true, 0x00, false⟩
          txn := { Txn.empty with answer := [0xC3, 0, 0, 0] } } } with
      | .next t => t.ctl.cell = some ⟨[], false, 0xC3, true⟩ && t.ctl.txn.sent = 0
      | .fault _ | .refused _ => false) = false
      ∧ (match runAll [.byteCell (.whole 0x80), .byteCell .fall]
        { ready with ctl := { ready.ctl with
          phase := .answer, cell := some ⟨[true, false], true, 0x00, false⟩
          txn := { Txn.empty with answer := [0xC3, 0, 0, 0] } } } with
      | .next t => t.ctl.cell = some ⟨[], false, 0xC3, true⟩ && t.ctl.txn.sent = 0
      | .fault _ | .refused _ => false) = true := by decide
theorem test_byte_cells_spell_a_row :
    (match runAll [.byteCell (.whole 0x39), .byteCell (.whole 1), .byteCell (.whole 9)] ready with
      | .next t => t.dse.window = 9 && t.ctl.txn.answer = [0xC3, 0, 0, 1, 9]
      | .fault _ | .refused _ => false) = true := by decide
theorem test_panel_message_sent :
    after .panelMessageSent { ready with dse := { ready.dse with port := [.panelOff, .panelOn] } }
      (fun t => t.dse.port = [.panelOn]) = true := by decide
/-- R199: a LINE message is 0x01, the line number and 40 codes; PANEL-ON is 0x02 and PANEL-OFF 0x03. -/
theorem test_port_bytes :
    State.portBytes { ready with dse := { ready.dse with port := [.line 16 blankLine, .panelOff, .panelOn] } }
      = [0x01, 16] ++ List.replicate 40 0x20 ++ [0x03, 0x02] := by decide
/-- R6, R59: a width-0 edge and a candidate that expires at the same moment are one change of levels. -/
theorem test_edges_of_one_moment :
    after (.rawLevelChange ⟨[⟨8, 5000⟩], [7]⟩)
      { ready with pfe := { ready.pfe with
          banks := ready.pfe.banks.set 1 ⟨80, 0⟩
          probes := ready.pfe.probes.set 7 { Probe.reset with candidate := some ⟨true, 2⟩ } } }
      (fun t => t.pfe.probes[7].level && t.pfe.probes[8].level && t.pfe.probes[7].edgesNow = 1) = true := by decide
/-- R6: candidates due at the moment of a bank change wait for it. -/
theorem test_due_edges_wait_for_the_bank :
    after (.qualifiedEdge ⟨[7], true⟩)
      { ready with pfe := { ready.pfe with probes := ready.pfe.probes.set 7 { Probe.reset with candidate := some ⟨true, 2⟩ } } }
      (fun t => t.pfe.due = [7] && t.pfe.probes[7] = { Probe.reset with candidate := some ⟨true, 2⟩ }) = true := by decide
/-- Lane 0 with its clock on probe 7, of bank A, and its data on probe 8, of bank B. -/
def laneAcross : Lane := { lane0 with cfg := { lane0.cfg with pins := { lane0.cfg.pins with twoClock := 7, twoData := 8 } } }
/-- Lane 0 idle with its clock low and its data high, the clock's pin at 2000 mV and the data's at 1000 mV. -/
def across : State :=
  { withLane 0 laneAcross ready with pfe := { ready.pfe with
      banks := #v[⟨250, 0⟩, ⟨10, 0⟩], pins := (ready.pfe.pins.set 7 2000).set 8 1000
      probes := ready.pfe.probes.set 8 { Probe.reset with level := true } } }
/-- R6, R39: a clock that rises as the data falls is no start, the clock by its candidate's expiry, the data by the bank. -/
theorem test_probe_set_and_due_edges_are_one_change :
    after (.probeSet ⟨4, [1, 0x06, 0x40, 0]⟩)
      { across with pfe := { across.pfe with
          probes := across.pfe.probes.set 7 { Probe.reset with candidate := some ⟨true, 2⟩ }, due := [7] } }
      (fun t => t.lanes[0].state = .idle && t.pfe.probes[7].level && !t.pfe.probes[8].level && t.pfe.due = []) = true := by
  decide +kernel
/-- R6, R39, R190: the two banks of a settings block change at one moment; lane 0's stored entry is refused. -/
theorem test_settings_banks_are_one_change :
    after .settingsBlock (servingAt .profile (inOp (.load { Load.start .all with stage := .settings })
        (withFlash (Flash.writeAll [] 0 ([0x4E, 0x57, 0xB1, 0xA8, 1, 0, 1, 0, 128, 0] ++ List.replicate 6 0
          ++ [80, 0, 80, 0, 0x30] ++ List.replicate 123 0)) across)))
      (fun t => t.lanes[0].state = .idle && t.pfe.probes[7].level && !t.pfe.probes[8].level) = true := by decide +kernel
/-- R25, R76: the second data byte of a management frame is the first of a LITTLE lane's value. -/
theorem test_management_little :
    (([true, false, true] ++ List.replicate 10 true ++ [true, false] ++ byteBits 0x11 ++ byteBits 0x40).foldl
      (fun (l : Lane) b => (l.mgmtBit 2 b).lane)
      { lane2 with state := .idle, mgmt := ⟨32, true, .operation []⟩, cfg := { lane2.cfg with byteOrder := .little } }).slot
      = some ⟨⟨2, 31, 31⟩, .write, 0x4011, 2⟩ := by decide +kernel
theorem test_release_with_the_key_low :
    after .resetRelease { ready with inReset := true, pwu := { ready.pwu with keyLow := true, timer := none } }
      (fun t => !t.inReset && t.pwu.keyCandidate = some ⟨true, true⟩ && t.pwu.timer = some (.dim, 30)
        && t.pim.op = .load (Load.start .startUp)) = true := by decide

/-! ## Witnesses: for every statement with hypotheses, a state and operands that meet them, clause by clause -/

/-- `ready` with a full reset held. -/
def held : State := { ready with inReset := true }
/-- `ready` on a HELD link. -/
def unreleased : State := { ready with ctl := { ready.ctl with link := .held } }
/-- `ready` in this transaction phase. -/
def inPhase (ph : Phase) (s : State) : State := { s with ctl := { s.ctl with phase := ph } }
/-- `s` sending the answer of this command, one byte of it left. -/
def answering (b : Byte) (ops : List Byte) (s : State) : State :=
  { s with ctl := { s.ctl with
      phase := .answer
      txn := { Txn.empty with command := some b, operands := ops, answer := [0xC3, 0, 0, 0], sent := 3 } } }
/-- `ready` with this transaction record in this phase. -/
def carrying (ph : Phase) (x : Txn) : State := { ready with ctl := { ready.ctl with phase := ph, txn := x } }
/-- `s` with this byte cell. -/
def withCell (c : Option Cell) (s : State) : State := { s with ctl := { s.ctl with cell := c } }
/-- `s` with this slot 0. -/
def withSlot (x : Slot) (s : State) : State := { s with wta := { s.wta with slots := s.wta.slots.set 0 x } }
/-- A load of this scope and stage in flight. -/
def loading (sc : LoadScope) (st : LoadStage) (s : State) : State := inOp (.load { Load.start sc with stage := st }) s

theorem witness_FullResetTakesEveryBlock : ready.inReset = false := by decide
theorem witness_ResetReleaseStartsTheLoad : held.inReset = true ∧ ready.inReset = false := by decide
theorem witness_HeldResetFollowsInputsOnly :
    held.inReset = true ∧ Instr.powerOn ≠ .lselFallingEdge ∧ Instr.powerOn ≠ .lselRisingEdge
      ∧ (∀ low, Instr.powerOn ≠ .holdkeyChange low) ∧ (∀ cs due, Instr.powerOn ≠ .rawLevelChange ⟨cs, due⟩)
      ∧ Instr.powerOn ≠ .resetRelease :=
  ⟨by decide, by decide, by decide, fun _ => nofun, fun _ _ => nofun, by decide⟩
theorem witness_LselFallOpensATransaction :
    ready.inReset = false ∧ ready.ctl.lselLow = true
      ∧ (lselHigh ready).inReset = false ∧ (lselHigh ready).ctl.lselLow = false ∧ (lselHigh ready).pwu.op ≠ .sleepEntry
      ∧ (lselHigh ready).pwu.power ≠ .sleep
      ∧ (lselHigh (inPower .sleep .wake ready)).ctl.lselLow = false
      ∧ (lselHigh (inPower .sleep .wake ready)).pwu.op ≠ .sleepEntry
      ∧ (lselHigh (inPower .sleep .wake ready)).pwu.power = .sleep
      ∧ (lselHigh (inPower .dark .sleepEntry ready)).ctl.lselLow = false
      ∧ (lselHigh (inPower .dark .sleepEntry ready)).pwu.op = .sleepEntry
      ∧ startUpDone (lselHigh (inPower .dark .sleepEntry ready)) = true := by decide
theorem witness_LselRiseEndsTheTransaction :
    (lselHigh ready).inReset = false ∧ (lselHigh ready).ctl.lselLow = false
      ∧ ready.ctl.lselLow = true ∧ ready.ctl.txn.restarts = false ∧ ready.ctl.txn.sleeps = false ∧ ready.ctl.phase ≠ .answer
      ∧ (answering 0x32 [7] ready).ctl.phase = .answer ∧ (answering 0x32 [7] ready).ctl.txn.answered = some .takeWatch
      ∧ slotOf 7 = some 7 ∧ slotOf 8 = none ∧ (answering 0x1A [3, 1] ready).ctl.txn.answered = some .laneStatus
      ∧ (carrying .trailer { Txn.empty with restarts := true }).ctl.txn.restarts = true
      ∧ (carrying .trailer { Txn.empty with sleeps := true }).ctl.txn.sleeps = true
      ∧ (carrying .trailer { Txn.empty with sleeps := true }).ctl.txn.restarts = false
      ∧ (carrying .trailer { Txn.empty with sleeps := true }).pwu.op = .none
      ∧ (carrying .trailer { Txn.empty with sleeps := true }).pwu.power ≠ .sleep
      ∧ (inPower .dark .sleepEntry (carrying .trailer { Txn.empty with sleeps := true })).pwu.op ≠ .none
      ∧ (inPower .sleep .none (carrying .trailer { Txn.empty with sleeps := true })).pwu.power = .sleep
      ∧ (carrying .answer { Txn.empty with sleeps := true, command := some 0x42 }).ctl.phase = .answer
      ∧ (carrying .answer { Txn.empty with sleeps := true, command := some 0x42 }).ctl.txn.command = some 0x42 := by decide
theorem witness_ByteCellMovesThePhase :
    ready.inReset = false ∧ (lselHigh ready).ctl.lselLow = false ∧ ready.ctl.lselLow = true
      ∧ (inPhase .closed ready).ctl.phase = .closed ∧ ready.ctl.phase = .command ∧ (inPhase .length ready).ctl.phase = .length
      ∧ 1 ≤ (64 : Byte).toNat ∧ (64 : Byte).toNat ≤ 64
      ∧ (carrying .operands { Txn.empty with len := some 2 }).ctl.txn.len = some 2
      ∧ (carrying .operands { Txn.empty with len := some 2 }).ctl.txn.operands.length + 1 < (2 : Byte).toNat
      ∧ (inPhase .waiting ready).ctl.phase = .waiting
      ∧ (carrying .answer { Txn.empty with answer := [0xC3, 0, 0, 0], sent := 2 }).ctl.txn.sent + 1 < 4
      ∧ 4 ≤ (answering 0x01 [] ready).ctl.txn.sent + 1 ∧ (answering 0x01 [] ready).ctl.txn.answer.length = 4
      ∧ (inPhase .trailer ready).ctl.phase = .trailer
      ∧ ([0xC3, 0, 0, 0] : List Byte)[2]? = some 0
      ∧ (withCell (some ⟨[], true, 0xFF, false⟩) ready).ctl.cell = some ⟨[], true, 0xFF, false⟩
      ∧ ready.ctl.cell = some ⟨[], false, 0xFF, false⟩ := by decide
theorem witness_ByteCellMovesThePhase_edges :
    (withCell (some ⟨[true], true, 0x00, false⟩) ready).ctl.lselLow = true
      ∧ (⟨List.replicate 6 true, false, 0xFF, false⟩ : Cell).bits.length < 7
      ∧ (⟨[true], true, 0x00, false⟩ : Cell).bits ≠ []
      ∧ (⟨[true], true, 0x00, false⟩ : Cell).bits.isPrefixOf (byteBits 0x80) = true
      ∧ (⟨[], false, 0x00, false⟩ : Cell).bits.isPrefixOf (byteBits 0x7F) = true
      ∧ (withCell none ready).ctl.cell = none ∧ (withCell none ready).inReset = false := by decide
theorem witness_ByteCellsSpellTheRow :
    ready.inReset = false ∧ ready.ctl.lselLow = true ∧ ready.ctl.phase = .command ∧ ready.ctl.txn = Txn.empty
      ∧ ready.ctl.cell = some ⟨[], false, 0xFF, false⟩ ∧ settle ready = ready ∧ (⟨0, []⟩ : Frame).wellFormed = true
      ∧ (⟨65, []⟩ : Frame).wellFormed = true
      ∧ (⟨64, List.replicate 64 0⟩ : Frame).wellFormed = true ∧ Cmd.ofByte 0x00 = none ∧ Cmd.ofByte 0xFF = none := by
  decide +kernel
theorem witness_CompleteDeliveryConsumes :
    ready.inReset = false ∧ ¬ (ready.ctl.lselLow = true ∧ ready.ctl.phase = .answer)
      ∧ (answering 0x32 [7] ready).ctl.lselLow = true ∧ (answering 0x32 [7] ready).ctl.phase = .answer
      ∧ (answering 0x02 [] ready).ctl.txn.answered = some .release ∧ (answering 0x41 [1] ready).ctl.txn.answered = some .powerStatus
      ∧ (answering 0x1A [3, 1] ready).ctl.txn.answered = some .laneStatus ∧ laneOf 3 = some 3 ∧ laneOf 4 = none := by decide
theorem witness_LinkLevelChecks :
    Opened ready ∧ ready.pwu.power = .run ∧ (Frame.ofOperands [1]).wellFormed = true ∧ Cmd.ofByte 0x06 = none
      ∧ Opened unreleased ∧ unreleased.ctl.link = .held ∧ Cmd.status ≠ .identify ∧ Cmd.status ≠ .release
      ∧ (Frame.ofOperands [1]).len.toNat ≠ Cmd.status.operandLength
      ∧ (Frame.ofOperands [1]).len.toNat ≠ Cmd.identify.operandLength := by decide
theorem witness_TakingIsAnActivityEvent :
    Opened (inPower .dark .none ready) ∧ ready.ctl.link = .ready ∧ [(1 : Byte)].length = Cmd.hold.operandLength
      ∧ (∀ w ∈ ready.ctl.waiting, ownerOf w.cmd w.operands ≠ ownerOf .hold [1]) ∧ Cmd.hold ≠ .powerSet
      ∧ ready.pwu.linkActivity = true ∧ Cmd.hold ≠ .probeSet
      ∧ Opened { inPower .dim .none ready with pwu := { ready.pwu with power := .dim, linkActivity := false } } := by decide
theorem witness_TwoMomentCommandsWait :
    Hears .probeRead [1] ready ∧ Hears .laneStatus [3, 1] ready ∧ byteAt [3, 1] 0 ≤ 3 ∧ Hears .laneStatus [4, 1] ready
      ∧ 3 < byteAt [4, 1] 0 ∧ Hears .lookup [0, 0, 0, 0] ready ∧ Hears .walk [1] ready ∧ Hears .walkFrom [0, 0, 0, 0] ready
      ∧ Hears .seed [0, 0, 0, 0] ready ∧ Hears .amend (List.replicate 27 0) ready ∧ Hears .retire [0, 0, 0, 0] ready
      ∧ Hears .clearTable [0] ready ∧ Hears .tableInfo [] ready ∧ Hears .hold [1] ready
      ∧ Hears .watchSet [7, 0, 0, 0, 0] ready ∧ Hears .trapSet (List.replicate 10 0) ready ∧ Hears .sleep [] ready := by
  and_intros <;> decide
theorem witness_TwoMomentCommandsWait_turns :
    (waitingFor .retire [0, 0, 0, 0] ready).rte.serving = some .link
      ∧ hasWork (waitingFor .retire [0, 0, 0, 0] ready) .link
      ∧ (∀ p, ready.rte.serving = some p → ¬ hasWork ready p)
      ∧ (withLane 3 { Lane.reset with request := some .marking } ready).lanes[(3 : Fin 4)].request ≠ none
      ∧ ready.rte.serving ≠ some (.lane 0) ∧ ready.inReset = false :=
  ⟨rfl, ⟨_, List.mem_singleton_self _, by decide⟩, nofun, by decide, nofun, rfl⟩
theorem witness_IdentifyGivesTheIdentity :
    Opened ready ∧ Opened unreleased ∧ ready.pwu.power = .run ∧ ∀ w ∈ ready.ctl.waiting, ownerOf w.cmd w.operands ≠ .ctl := by
  decide
theorem witness_CtlCommandsAreAnswered :
    Opened unreleased ∧ unreleased.pwu.power = .run ∧ (∀ w ∈ unreleased.ctl.waiting, ownerOf w.cmd w.operands ≠ .ctl)
      ∧ startUpDone unreleased = true ∧ Opened (loading .startUp .reading unreleased)
      ∧ startUpDone (loading .startUp .reading unreleased) = false ∧ Hears .status [] ready ∧ Hears .profileStatus [] ready
      ∧ Hears .restart [] ready := by decide
theorem witness_AttentionCommands :
    Hears .acknowledge [0x02, 0x00] ready ∧ 512 ≤ natAt [0x02, 0x00] 0 2 ∧ Hears .acknowledge [0x01, 0xFF] ready
      ∧ natAt [0x01, 0xFF] 0 2 < 512 ∧ Hears .attnEnable [0x02, 0x00] ready ∧ Hears .attnEnable [0x01, 0xFF] ready := by
  decide
theorem witness_ProbeSetWritesABank :
    Hears .probeSet [2, 0, 0, 0] ready ∧ 1 < byteAt [2, 0, 0, 0] 0 ∧ Hears .probeSet [1, 0xFF, 0xFF, 255] ready
      ∧ byteAt [1, 0xFF, 0xFF, 255] 0 = (1 : Fin 2).val := by decide
theorem witness_LaneCommandsRestartTheLane :
    Hears .laneSet laneOps ready ∧ loadAllInFlight (loading .all .reading ready) = true
      ∧ Hears .laneSet laneOps (loading .all .reading ready) ∧ loadAllInFlight ready = false
      ∧ Hears .laneSet (laneOps.set 0 4) ready ∧ 3 < byteAt (laneOps.set 0 4) 0 ∧ 3 < byteAt (laneOps.set 1 4) 1
      ∧ byteAt (laneOps.set 2 3) 2 ∉ [1, 2, 4] ∧ byteAt (laneOps.set 2 3) 1 ≠ 3
      ∧ 15 < byteAt (laneOps.set 14 16) 14 ∧ byteAt laneOps 0 = (0 : Fin 4).val
      ∧ (parseLaneConfig (bytesAt laneOps 1 24)).isSome = true
      ∧ Hears .laneEnable [4, 1] ready ∧ 3 < byteAt [4, 1] 0 ∧ Hears .laneEnable [3, 2] ready ∧ 1 < byteAt [3, 2] 1
      ∧ Hears .laneEnable [3, 1] ready ∧ byteAt [3, 1] 0 = (3 : Fin 4).val ∧ byteAt [3, 1] 1 ≤ 1
      ∧ Hears .laneEnable [3, 1] (loading .all .reading ready) := by
  and_intros <;> decide
theorem witness_LaneCommandsRestartTheLane_configurations :
    (bytesAt laneOps 1 24).length = 24 ∧ (parseLaneConfig (bytesAt laneOps 1 24)).isSome = true
      ∧ (bytesAt (laneOps.set 14 16) 1 24).length = 24 ∧ ConfigRefused (bytesAt (laneOps.set 14 16) 1 24) := by
  and_intros <;> decide
theorem witness_SlotCommands :
    Hears .watchFree [8] ready ∧ 7 < byteAt [8] 0 ∧ Hears .watchFree [7] ready ∧ byteAt [7] 0 = (7 : Fin 8).val
      ∧ Hears .takeWatch [8] ready ∧ Hears .takeWatch [7] ready := by decide
theorem witness_TrapReadNotes :
    Hears .trapRead [4, 0] ready ∧ 3 < byteAt [4, 0] 0 ∧ Hears .trapRead [3, 2] ready ∧ 1 < byteAt [3, 2] 1
      ∧ Hears .trapRead [3, 1] ready ∧ byteAt [3, 1] 0 = (3 : Fin 4).val ∧ byteAt [3, 1] 1 = 1
      ∧ Hears .trapRead [3, 0] ready ∧ byteAt [3, 0] 1 = 0 := by decide
theorem witness_ViewCommandsWriteTheSettings :
    Hears .viewSet [17, 0, 0, 0, 0, 0, 0] ready ∧ 16 < byteAt [17, 0, 0, 0, 0, 0, 0] 0
      ∧ Hears .viewSet [16, 4, 2, 0, 0, 0, 0] ready ∧ byteAt [16, 4, 2, 0, 0, 0, 0] 0 = (15 : Fin 16).val + 1
      ∧ bindingOf 4 [0, 0, 0, 0] = some .auto ∧ Format.ofCode 2 = some .binary ∧ bindingOf 5 [0, 0, 0, 0] = none
      ∧ Hears .viewOptions [255] ready ∧ Hears .panelSet [0, 16] ready := by decide
theorem witness_PowerCommands :
    Hears .powerSet (List.replicate 21 0 ++ [4, 0, 0, 0]) ready
      ∧ 3 < byteAt (List.replicate 21 0 ++ [4, 0, 0, 0]) (6 + (15 : Fin 16).val)
      ∧ 1 < byteAt (List.replicate 24 0 ++ [2]) 24 ∧ Hears .powerSet (List.replicate 24 0 ++ [1]) ready
      ∧ (∀ n : Fin 16, byteAt (List.replicate 24 0 ++ [1]) (6 + n.val) = 0) ∧ byteAt (List.replicate 24 0 ++ [1]) 24 ≤ 1
      ∧ Hears .powerStatus [2] ready ∧ 1 < byteAt [2] 0 ∧ Hears .powerStatus [0] ready ∧ Hears .powerStatus [1] ready := by
  and_intros <;> decide
theorem witness_ProfileCommandsBegin :
    (∀ i : Fin 4, (ready.lanes[i]).cfg.Law)
      ∧ (∀ l, ({ rec0 with label := some (List.replicate 12 0x20) } : Record).label = some l → l.length ≤ 12)
      ∧ Hears .profileLoad [2] ready ∧ 1 < byteAt [2] 0 ∧ Hears .profileLoad [1] (loading .startUp .reading ready)
      ∧ (loading .startUp .reading ready).pim.op ≠ .none ∧ byteAt [1] 0 ≤ 1 ∧ Hears .profileLoad [1] ready
      ∧ ready.pim.op = .none ∧ Hears .profileStore [] ready ∧ Hears .profileStore [] (inOp (.store .commit) ready) :=
  ⟨by decide, fun _ h => Option.some.inj h ▸ by decide, by and_intros <;> decide⟩


/-- A table of 1024 records, keys 0/0/0 to 0/0/1023. -/
def fullTable (f : Record → Record) : List Record :=
  (List.range 1024).map fun n => { f rec0 with key := ⟨0, 0, BitVec.ofNat 16 n⟩ }

theorem fullTable_length (f : Record → Record) : (fullTable f).length = 1024 := by
  rw [fullTable, List.length_map, List.length_range]

theorem fullTable_law (f : Record → Record) (s : State) : TableLaw (withTable (fullTable f) s) := by
  have hl := fullTable_length f
  generalize ht : fullTable f = t at hl
  refine ⟨by show t.length ≤ 1024; omega, ?_⟩
  show (t.map _).Pairwise _
  subst ht
  rw [fullTable, List.map_map, List.pairwise_map]
  refine List.Pairwise.imp_of_mem ?_ List.pairwise_lt_range
  intro a b ha hb hab
  have ha := List.mem_range.1 ha
  have hb := List.mem_range.1 hb
  simp only [Function.comp_apply, Key.num, BitVec.toNat_ofNat]
  omega

theorem fullTable_lane {f : Record → Record} {r : Record} (h : r ∈ fullTable f) : r.key.lane = 0 := by
  rw [fullTable] at h
  obtain ⟨_, _, rfl⟩ := List.mem_map.1 h
  rfl

theorem fullTable_has (f : Record → Record) : { f rec0 with key := ⟨0, 0, 0⟩ } ∈ fullTable f := by
  rw [fullTable]
  exact List.mem_map.2 ⟨0, List.mem_range.2 (by decide), rfl⟩

/-- A pinned record. -/
def pinned (r : Record) : Record := { r with pinned := true }

theorem fullTable_pinned {r : Record} (h : r ∈ fullTable pinned) : r.pinned = true := by
  rw [fullTable] at h
  obtain ⟨_, _, rfl⟩ := List.mem_map.1 h
  rfl

/-- A command waiting in its open transaction is served next, the RTE at LINK. -/
theorem waits_at_link (c : Cmd) (ops : List Byte) (s : State) (hr : s.inReset = false) (hp : s.pwu.power ≠ .sleep)
    (h : ops.length = c.operandLength) : WaitsAtLink c ops (waitingFor c ops s) :=
  ⟨⟨hr, hp, h, List.find?_cons_of_pos (decide_eq_true rfl)⟩, rfl⟩

theorem witness_TableReadsAreServed :
    WaitsAtLink .lookup [0, 0, 0, 0] (waitingFor .lookup [0, 0, 0, 0] ready)
      ∧ Machine.lookup (keyOf [0, 0, 0, 0]) (waitingFor .lookup [0, 0, 0, 0] ready).rte.table = none
      ∧ WaitsAtLink .lookup [0, 0, 0, 0] (waitingFor .lookup [0, 0, 0, 0] (withTable [rec0] ready))
      ∧ Machine.lookup (keyOf [0, 0, 0, 0]) (waitingFor .lookup [0, 0, 0, 0] (withTable [rec0] ready)).rte.table = some rec0
      ∧ WaitsAtLink .tableInfo [] (waitingFor .tableInfo [] ready)
      ∧ (∀ l, ({ rec0 with label := some (List.replicate 12 0x20) } : Record).label = some l → l.length ≤ 12) :=
  ⟨by decide, by decide, by decide, by decide, by decide, fun _ h => Option.some.inj h ▸ by decide⟩
theorem witness_WalkIsServed :
    TableLaw (waitingFor .walk [0] ready) ∧ WaitsAtLink .walk [0] (waitingFor .walk [0] ready) ∧ byteAt [0] 0 = 0
      ∧ TableLaw (waitingFor .walk [1] (withTable [rec0, newRecord ⟨0, 0, 9⟩ 2 0] ready))
      ∧ WaitsAtLink .walk [1] (waitingFor .walk [1] (withTable [rec0, newRecord ⟨0, 0, 9⟩ 2 0] ready)) ∧ byteAt [1] 0 ≠ 0
      ∧ WaitsAtLink .walkFrom [0xC3, 0xFF, 0xFF, 0xFF] (waitingFor .walkFrom [0xC3, 0xFF, 0xFF, 0xFF] ready) := by
  and_intros <;> decide

/-- A SEED of 1/0/0 waits, lane 1 being a two-wire lane. -/
def seeding (rs : List Record) : State :=
  waitingFor .seed [0x40, 0, 0, 0] (withTable rs (withLane 1 lane0 ready))
theorem witness_SeedIsServed :
    keyOf [0x40, 0, 0, 0] = ⟨1, 0, 0⟩
      ∧ WaitsAtLink .seed [0x40, 0, 0, 0] (waitingFor .seed [0x40, 0, 0, 0] ready)
      ∧ profileLoadInFlight (waitingFor .seed [0x40, 0, 0, 0] ready) = false
      ∧ keyFits ready.lanes[1].cfg ⟨1, 0, 0⟩ = false
      ∧ (∀ rs, WaitsAtLink .seed [0x40, 0, 0, 0] (seeding rs) ∧ profileLoadInFlight (seeding rs) = false
          ∧ keyFits (seeding rs).lanes[1].cfg ⟨1, 0, 0⟩ = true)
      ∧ (∃ r ∈ (seeding [newRecord ⟨1, 0, 0⟩ 2 0]).rte.table, r.key = ⟨1, 0, 0⟩)
      ∧ (∀ r ∈ (seeding [rec0]).rte.table, r.key ≠ ⟨1, 0, 0⟩) ∧ (seeding [rec0]).rte.table.length < 1024 :=
  ⟨by decide, waits_at_link _ _ _ rfl (by decide) rfl, rfl, by decide,
    fun _ => ⟨waits_at_link _ _ _ rfl nofun rfl, rfl, rfl⟩, ⟨_, List.mem_singleton_self _, rfl⟩, by decide, by decide⟩
theorem seeding_full {rs : List Record} (hl : rs.length = 1024) (h0 : ∀ r ∈ rs, r.key.lane = 0) :
    (∀ r ∈ (seeding rs).rte.table, r.key ≠ ⟨1, 0, 0⟩) ∧ 1024 ≤ (seeding rs).rte.table.length :=
  ⟨fun r h e => absurd (h0 r h) (by rw [e]; decide), Nat.le_of_eq hl.symm⟩
theorem witness_SeedIsServed_evicts :
    (∀ r ∈ (seeding (fullTable id)).rte.table, r.key ≠ ⟨1, 0, 0⟩) ∧ 1024 ≤ (seeding (fullTable id)).rte.table.length :=
  seeding_full (fullTable_length id) fun _ => fullTable_lane
theorem witness_SeedIsServed_evictable : ∃ r ∈ fullTable id, r.pinned = false ∧ r.watch = none :=
  ⟨_, fullTable_has id, rfl, rfl⟩
theorem witness_SeedIsServed_full :
    (∀ r ∈ (seeding (fullTable pinned)).rte.table, r.key ≠ ⟨1, 0, 0⟩) ∧ 1024 ≤ (seeding (fullTable pinned)).rte.table.length :=
  seeding_full (fullTable_length pinned) fun _ => fullTable_lane
theorem witness_SeedIsServed_protected : ∀ r ∈ fullTable pinned, r.pinned = true ∨ r.watch.isSome :=
  fun _ h => .inl (fullTable_pinned h)

/-- AMEND operands: key 0/0/0, this change set, no label, expected 0x1235 under mask 0xFF. -/
def amendOps (set : Byte) : List Byte :=
  [0, 0, 0, 0, 0, set, 0] ++ List.replicate 12 0 ++ [0, 0, 0x12, 0x35, 0, 0, 0, 0xFF]
theorem witness_AmendIsServed :
    WaitsAtLink .amend (amendOps 0x0C) (waitingFor .amend (amendOps 0x0C) ready)
      ∧ (amendOps 0x0C).length = 27 ∧ (amendOps 0x04).length = 27
      ∧ profileLoadInFlight (waitingFor .amend (amendOps 0x0C) ready) = false ∧ parseAmend (amendOps 0x0C) = none
      ∧ WaitsAtLink .amend (amendOps 0x04) (waitingFor .amend (amendOps 0x04) (withTable [rec0] ready))
      ∧ (parseAmend (amendOps 0x04)).isSome = true ∧ keyOf (bytesAt (amendOps 0x04) 0 4) = ⟨0, 0, 0⟩
      ∧ Machine.lookup ⟨0, 0, 0⟩ ready.rte.table = none ∧ Machine.lookup ⟨0, 0, 0⟩ (withTable [rec0] ready).rte.table = some rec0 := by
  and_intros <;> decide
theorem witness_RetirementsAreServed :
    profileLoadInFlight (waitingFor .retire [0, 0, 0, 0] (withTable [rec0] ready)) = false
      ∧ WaitsAtLink .retire [0, 0, 0, 0] (waitingFor .retire [0, 0, 0, 0] (withTable [rec0] ready))
      ∧ Machine.lookup (keyOf [0, 0, 0, 0]) (withTable [rec0] ready).rte.table = some rec0
      ∧ Machine.lookup (keyOf [0, 0, 0, 1]) (withTable [rec0] ready).rte.table = none
      ∧ WaitsAtLink .retire [0, 0, 0, 1] (waitingFor .retire [0, 0, 0, 1] (withTable [rec0] ready))
      ∧ WaitsAtLink .clearTable [1] (waitingFor .clearTable [1] (withTable [rec0] ready)) ∧ byteAt [1] 0 ≤ 1
      ∧ TableLaw (waitingFor .clearTable [1] (withTable [rec0] ready))
      ∧ BindingLaw (waitingFor .clearTable [1] (withTable [rec0] ready))
      ∧ WaitsAtLink .clearTable [2] (waitingFor .clearTable [2] (withTable [rec0] ready)) ∧ 1 < byteAt [2] 0 := by
  refine ⟨rfl, waits_at_link _ _ _ rfl (by decide) rfl, by decide, by decide, waits_at_link _ _ _ rfl (by decide) rfl,
    waits_at_link _ _ _ rfl (by decide) rfl, by decide, by decide, ⟨?_, by decide⟩, waits_at_link _ _ _ rfl (by decide) rfl,
    by decide⟩
  intro i k h
  rw [show (waitingFor .clearTable [1] (withTable [rec0] ready)).wta.slots[i] = .free by clear h; revert i; decide] at h
  cases h
theorem witness_HoldIsServed :
    WaitsAtLink .hold [2] (waitingFor .hold [2] ready) ∧ 1 < byteAt [2] 0 ∧ WaitsAtLink .hold [1] (waitingFor .hold [1] ready)
      ∧ byteAt [1] 0 = (if true then 1 else 0) ∧ (waitingFor .hold [1] ready).rte.hold ≠ true
      ∧ WaitsAtLink .hold [0] (waitingFor .hold [0] ready) ∧ byteAt [0] 0 = (if false then 1 else 0)
      ∧ (waitingFor .hold [0] ready).rte.hold = false := by and_intros <;> decide
theorem witness_WatchSetIsServed :
    WaitsAtLink .watchSet [8, 0, 0, 0, 0] (waitingFor .watchSet [8, 0, 0, 0, 0] ready) ∧ 7 < byteAt [8, 0, 0, 0, 0] 0
      ∧ WaitsAtLink .watchSet [7, 0, 0, 0, 0] (waitingFor .watchSet [7, 0, 0, 0, 0] (withTable [rec0] ready))
      ∧ byteAt [7, 0, 0, 0, 0] 0 = (7 : Fin 8).val ∧ (withTable [rec0] ready).wta.slots[7] = .free
      ∧ Machine.lookup (keyOf (bytesAt [7, 0, 0, 0, 0] 1 4)) ready.rte.table = none
      ∧ Machine.lookup (keyOf (bytesAt [7, 0, 0, 0, 0] 1 4)) (withTable [rec0] ready).rte.table = some rec0
      ∧ rec0.watch = none ∧ ({ rec0 with watch := some 0 } : Record).watch ≠ none
      ∧ (withSlot (.armed ⟨0, 0, 0⟩) ready).wta.slots[0] ≠ .free := by and_intros <;> decide
theorem witness_WatchAndTrapSetsAreServed :
    WaitsAtLink .trapSet [3, 2, 3, 0x03, 0xFF, 0xFF, 0xFF, 0xFF, 0xFF, 2]
        (waitingFor .trapSet [3, 2, 3, 0x03, 0xFF, 0xFF, 0xFF, 0xFF, 0xFF, 2] ready)
      ∧ byteAt [3, 2, 3, 0x03, 0xFF, 0xFF, 0xFF, 0xFF, 0xFF, 2] 0 = (3 : Fin 4).val
      ∧ natAt [3, 2, 3, 0x03, 0xFF, 0xFF, 0xFF, 0xFF, 0xFF, 2] 3 2 ≤ 1023
      ∧ natAt [3, 2, 3, 0x03, 0xFF, 0xFF, 0xFF, 0xFF, 0xFF, 2] 5 2 ≤ natAt [3, 2, 3, 0x03, 0xFF, 0xFF, 0xFF, 0xFF, 0xFF, 2] 7 2
      ∧ WaitsAtLink .trapSet [3, 2, 3, 0x04, 0x00, 0, 0, 0, 0, 2]
        (waitingFor .trapSet [3, 2, 3, 0x04, 0x00, 0, 0, 0, 0, 2] ready)
      ∧ 1023 < natAt [3, 2, 3, 0x04, 0x00, 0, 0, 0, 0, 2] 3 2
      ∧ natAt [3, 2, 3, 0x03, 0xFF, 0, 5, 0, 4, 2] 7 2 < natAt [3, 2, 3, 0x03, 0xFF, 0, 5, 0, 4, 2] 5 2 := by
  and_intros <;> decide
theorem witness_OwnersServeInTurn :
    Waits .probeRead [2] (waitingFor .probeRead [2] ready) ∧ 1 < byteAt [2] 0
      ∧ (∀ w ∈ (waitingFor .probeRead [2] ready).ctl.waiting.erase ⟨.probeRead, [2], false⟩, ownerOf w.cmd w.operands ≠ .pfe)
      ∧ Waits .probeRead [1] (waitingFor .probeRead [1] ready) ∧ byteAt [1] 0 ≤ 1
      ∧ (∀ w ∈ (waitingFor .probeRead [1] ready).ctl.waiting.erase ⟨.probeRead, [1], false⟩, ownerOf w.cmd w.operands ≠ .pfe)
      ∧ Waits .laneStatus [3, 2] (waitingFor .laneStatus [3, 2] ready) ∧ byteAt [3, 2] 0 = (3 : Fin 4).val ∧ 1 < byteAt [3, 2] 1
      ∧ Waits .laneStatus [3, 1] (waitingFor .laneStatus [3, 1] ready) ∧ byteAt [3, 1] 1 ≤ 1
      ∧ Waits .sleep [] (waitingFor .sleep [] ready) ∧ ready.pim.op = .none
      ∧ (∀ w ∈ (waitingFor .sleep [] ready).ctl.waiting.erase ⟨.sleep, [], false⟩, ownerOf w.cmd w.operands ≠ .pwu)
      ∧ Waits .sleep [] (waitingFor .sleep [] (inOp (.store .verify) ready))
      ∧ (waitingFor .sleep [] (inOp (.store .verify) ready)).pim.op ≠ .none := by and_intros <;> decide
/-- This command waits with its transaction cut, or not, behind a RELEASE, the RTE at LINK. -/
def waitingCut (c : Cmd) (ops : List Byte) (cut : Bool) (s : State) : State :=
  { s with
    ctl := { s.ctl with waiting := [⟨.release, [], true⟩] ++ ⟨c, ops, cut⟩ :: [] }
    rte := { s.rte with serving := some .link } }
theorem witness_OwnersServeInTurn_cut (ops : List Byte) (h : ops.length = Cmd.retire.operandLength) :
    (waitingCut .retire ops false ready).inReset = false ∧ (waitingCut .retire ops false ready).pwu.power ≠ .sleep
      ∧ ops.length = Cmd.retire.operandLength
      ∧ (waitingCut .retire ops false ready).ctl.waiting = [⟨.release, [], true⟩] ++ ⟨.retire, ops, false⟩ :: []
      ∧ (∀ w ∈ [(⟨.release, [], true⟩ : Waiting)], ownerOf w.cmd w.operands ≠ ownerOf .retire ops)
      ∧ waitingCut .retire ops true ready = { waitingCut .retire ops false ready with
        ctl := { (waitingCut .retire ops false ready).ctl with
          waiting := [⟨.release, [], true⟩] ++ ⟨.retire, ops, true⟩ :: [] } }
      ∧ (waitingCut .retire ops false ready).rte.serving = some .link :=
  ⟨rfl, nofun, h, rfl, fun _ h => List.mem_singleton.1 h ▸ nofun, rfl, rfl⟩
theorem witness_OwnersServeInTurn_cut_owners :
    [(1 : Byte)].length = Cmd.walk.operandLength ∧ byteAt [1] 0 ≠ 0 ∧ [(1 : Byte)].length = Cmd.probeRead.operandLength
      ∧ byteAt [1] 0 ≤ 1 ∧ [(3 : Byte), 1].length = Cmd.laneStatus.operandLength ∧ byteAt [3, 1] 0 = (3 : Fin 4).val
      ∧ byteAt [3, 1] 1 ≤ 1 ∧ ([] : List Byte).length = Cmd.sleep.operandLength
      ∧ (waitingCut .sleep [] false (inOp (.store .verify) ready)).pim.op ≠ .none
      ∧ (waitingCut .sleep [] false ready).pim.op = .none ∧ (waitingCut .sleep [] false ready).pwu.op = .none := by decide
theorem witness_TableChangesAreBusyDuringALoad :
    (loading .all .seeding ready).pim.op = .load { Load.start .all with stage := .seeding }
      ∧ ({ Load.start .all with stage := .seeding } : Load).scope ≠ .startUp
      ∧ WaitsAtLink .seed [0, 0, 0, 0] (waitingFor .seed [0, 0, 0, 0] (loading .all .seeding ready))
      ∧ WaitsAtLink .amend (amendOps 4) (waitingFor .amend (amendOps 4) (loading .all .seeding ready))
      ∧ WaitsAtLink .retire [0, 0, 0, 0] (waitingFor .retire [0, 0, 0, 0] (loading .all .seeding ready))
      ∧ WaitsAtLink .clearTable [1] (waitingFor .clearTable [1] (loading .all .seeding ready)) := by
  and_intros <;> decide
theorem witness_DecayedHeatIsSevenEighths : ({ rec0 with heat := 65535 } : Record).heat ≤ 65535 := by decide

/-- Lane 0 holds this posting, and the RTE serves it. -/
def absorbing (p : Posting) (rs : List Record) (s : State) : State :=
  servingAt (.lane 0) (withTable rs (withLane 0 { lane0 with slot := some p } s))
/-- A WRITE posting of 0/72/5. -/
def aWrite : Posting := ⟨⟨0, 0x48, 5⟩, .write, 0x1234, 2⟩
/-- `ready` with trap window 3 in this mode over every register of target 72 of lane 0. -/
def trapped (m : TrapMode) : State :=
  { ready with wta := { ready.wta with traps := ready.wta.traps.set 3 ⟨m, 0, 0x48, 0, 65535, .both, 0, none, none⟩ } }

theorem witness_AbsorptionUpdatesTheRecord :
    AbsorbsNext 0 aWrite (absorbing aWrite [newRecord aWrite.key 2 0] (trapped .notify))
      ∧ (∀ j : Fin 4, ((absorbing aWrite [newRecord aWrite.key 2 0] (trapped .notify)).wta.traps[j]).hit aWrite = true →
          ((absorbing aWrite [newRecord aWrite.key 2 0] (trapped .notify)).wta.traps[j]).mode ≠ .exclude)
      ∧ Machine.lookup aWrite.key (absorbing aWrite [newRecord aWrite.key 2 0] (trapped .notify)).rte.table
          = some (newRecord aWrite.key 2 0) := by decide
theorem witness_AbsorptionAdmitsARecord :
    AbsorbsNext 0 aWrite (absorbing aWrite [rec0] ready) ∧ TableLaw (absorbing aWrite [rec0] ready)
      ∧ (∀ j : Fin 4, ((absorbing aWrite [rec0] ready).wta.traps[j]).hit aWrite = true →
          ((absorbing aWrite [rec0] ready).wta.traps[j]).mode ≠ .exclude)
      ∧ (∀ r ∈ (absorbing aWrite [rec0] ready).rte.table, r.key ≠ aWrite.key)
      ∧ (absorbing aWrite [rec0] ready).rte.table.length < 1024 := by decide
theorem fullTable_not_aWrite {f : Record → Record} {r : Record} (h : r ∈ fullTable f) : r.key ≠ aWrite.key := by
  rw [fullTable] at h
  obtain ⟨_, _, rfl⟩ := List.mem_map.1 h
  exact fun e => absurd (congrArg Key.target e) (show (0 : BitVec 10) ≠ 0x48 by decide)
theorem no_trap_hits : ∀ j : Fin 4, (ready.wta.traps[j]).hit aWrite = false := by decide
theorem absorbing_full {rs : List Record} (hl : rs.length = 1024) (h0 : ∀ r ∈ rs, r.key ≠ aWrite.key) :
    AbsorbsNext 0 aWrite (absorbing aWrite rs ready)
      ∧ (∀ j : Fin 4, ((absorbing aWrite rs ready).wta.traps[j]).hit aWrite = false)
      ∧ (∀ r ∈ (absorbing aWrite rs ready).rte.table, r.key ≠ aWrite.key)
      ∧ (absorbing aWrite rs ready).rte.table.length = 1024 :=
  ⟨⟨rfl, rfl, rfl, rfl⟩, no_trap_hits, h0, hl⟩
theorem witness_AbsorptionAdmitsARecord_full :
    AbsorbsNext 0 aWrite (absorbing aWrite (fullTable id) ready)
      ∧ (∀ j : Fin 4, ((absorbing aWrite (fullTable id) ready).wta.traps[j]).hit aWrite = false)
      ∧ (∀ r ∈ (absorbing aWrite (fullTable id) ready).rte.table, r.key ≠ aWrite.key)
      ∧ (absorbing aWrite (fullTable id) ready).rte.table.length = 1024 :=
  absorbing_full (fullTable_length id) fun _ => fullTable_not_aWrite
theorem witness_AbsorptionAdmitsARecord_law (s : State) : TableLaw (withTable (fullTable id) s) := fullTable_law id s
theorem witness_AbsorptionDropsThePosting :
    AbsorbsNext 0 aWrite (absorbing aWrite [] (trapped .exclude))
      ∧ (∃ j : Fin 4, ((absorbing aWrite [] (trapped .exclude)).wta.traps[j]).hit aWrite = true
        ∧ ((absorbing aWrite [] (trapped .exclude)).wta.traps[j]).mode = .exclude) := by decide
theorem witness_AbsorptionDropsThePosting_full :
    AbsorbsNext 0 aWrite (absorbing aWrite (fullTable pinned) ready)
      ∧ (∀ j : Fin 4, ((absorbing aWrite (fullTable pinned) ready).wta.traps[j]).hit aWrite = false)
      ∧ (∀ r ∈ (absorbing aWrite (fullTable pinned) ready).rte.table, r.key ≠ aWrite.key)
      ∧ (absorbing aWrite (fullTable pinned) ready).rte.table.length = 1024 :=
  absorbing_full (fullTable_length pinned) fun _ => fullTable_not_aWrite

/-- Lane `i` has this request waiting, and the RTE serves it. -/
def requesting (i : Fin 4) (r : LaneRequest) (ws : List Waiting) : State :=
  servingAt (.lane i) (withLane i { lane0 with request := some r } { ready with ctl := { ready.ctl with waiting := ws } })
/-- The commands of lane 3 that wait for its request. -/
def ofLane3 (w : Waiting) : Bool := (w.cmd = .laneSet || w.cmd = .laneEnable) && byteAt w.operands 0 = (3 : Fin 4).val
theorem witness_LaneRequestsAreServed :
    (requesting 3 .marking []).inReset = false ∧ (requesting 3 .marking []).rte.serving = some (.lane 3)
      ∧ ((requesting 3 .marking []).lanes[3]).request = some .marking
      ∧ ((requesting 3 .retirement []).lanes[3]).request = some .retirement ∧ TableLaw (requesting 3 .retirement [])
      ∧ (∀ w ∈ ([⟨.laneEnable, [3, 1], true⟩, ⟨.laneSet, laneOps.set 0 3, false⟩] : List Waiting),
          ofLane3 w = true → w.cut = false → w.cmd = .laneSet)
      ∧ (∀ w ∈ ([⟨.laneSet, laneOps.set 0 2, false⟩, ⟨.laneEnable, [3, 1], false⟩] : List Waiting),
          ofLane3 w = true → w.cut = false → w.cmd = .laneEnable) := by and_intros <;> decide
/-- R19, R20: the LANE-SET that waits for a retirement is answered with the configuration when it is served. -/
theorem test_retirement_answers_the_lane_set :
    after (.retirement 3) (requesting 3 .retirement [⟨.laneSet, laneOps.set 0 3, false⟩]) (fun t =>
      t.ctl.waiting = [] && t.ctl.phase = .answer && t.ctl.txn.answer.take 7 = [0xC3, 0, 0, 25, 3, 1, 2]) = true := by
  decide

/-- `ready` with a refresh in this phase, the RTE serving it. -/
def refreshing (ph : RefreshPhase) (rs : List Record) : State :=
  servingAt .display (withTable rs { ready with dse := { ready.dse with refresh := some (oneAuto ph) } })
/-- Sixty-four records. -/
def sixtyFour : List Record := (List.range 64).map fun n => { rec0 with key := ⟨0, 0, BitVec.ofNat 16 n⟩ }
theorem witness_RefreshSlicesAreServed :
    (∀ ph rs, ServesRefresh (oneAuto ph) (refreshing ph rs))
      ∧ TableLaw (refreshing (.ranking ⟨0, 0, 1⟩ [⟨⟨0, 0, 0⟩, 7, 0⟩]) sixtyFour)
      ∧ ([⟨⟨0, 0, 0⟩, 7, 0⟩] : List Ranked).length
          ≤ ((oneAuto .sending).rows.toList.filter fun r => r.binding = .auto).length
      ∧ (∀ x ∈ ([⟨⟨0, 0, 0⟩, 7, 0⟩] : List Ranked), x.key.num < (⟨0, 0, 1⟩ : Key).num)
      ∧ ((sixtyFour.filter fun r => (⟨0, 0, 0⟩ : Key).num ≤ r.key.num).take 64).length = 64
      ∧ (((sixtyFour.filter fun r => (⟨0, 0, 0⟩ : Key).num ≤ r.key.num).take 64).getLast?.map fun r => r.key.num) = some 63
      ∧ (([rec0].filter fun r => (⟨0, 0, 0⟩ : Key).num ≤ r.key.num).take 64).length < 64
      ∧ 4 < (List.replicate 5 ((0 : Fin 16), TableRow.watch 0)).length
      ∧ (List.replicate 4 ((0 : Fin 16), TableRow.watch 0)).length ≤ 4 :=
  ⟨fun _ _ => ⟨rfl, rfl, rfl⟩, ⟨by decide +kernel, by decide +kernel⟩, by decide, by decide, by decide +kernel,
    by decide +kernel, by decide, by decide, by decide⟩
theorem witness_RefreshSlicesAreServed_text :
    Machine.lookup ⟨0, 0, 0⟩ ready.rte.table = none
      ∧ Machine.lookup ⟨0, 0, 0⟩ (withTable [{ rec0 with label := some (List.replicate 12 0x41), changes := 65535 }] ready).rte.table
        = some { rec0 with label := some (List.replicate 12 0x41), changes := 65535 }
      ∧ rec0.width = 2 ∧ ready.wta.slots[0] = .free
      ∧ (withSlot (.armed ⟨0, 0, 0⟩) ready).wta.slots[0] = .armed ⟨0, 0, 0⟩
      ∧ (withSlot (.pending ⟨0, 0, 0⟩ 3 true none) ready).wta.slots[0] = .pending ⟨0, 0, 0⟩ 3 true none
      ∧ (withSlot (.detached ⟨0, 0, 0⟩ none true none) ready).wta.slots[0] = .detached ⟨0, 0, 0⟩ none true none
      ∧ (⟨.probe 15, .hex, false⟩ : Row).binding = .probe 15 ∧ (ready.pfe.probes[(15 : Fin 16)]).edgesLast ≤ 65535 := by
  and_intros <;> decide

/-- The image of one seed with an all-zero settings block. -/
def oneSeed (seed : List Byte) : Flash :=
  Flash.writeAll (Flash.writeAll [] 0 ([0x4E, 0x57, 0xB1, 0xA8, 1, 0, 1, 0, 128, 0] ++ List.replicate 134 0)) 144 seed
theorem witness_SettingsBlockWritesTheItems :
    Loads { Load.start .all with stage := .settings }
        (servingAt .profile (withFlash (oneSeed []) (loading .all .settings ready)))
      ∧ ({ Load.start .all with stage := .settings } : Load).next < (oneSeed []).seedCount
      ∧ (withFlash [(5, 0), (6, 0)] ready).pim.flash.seedCount ≤ (Load.start .startUp).next
      ∧ ready.pwu.deferred = false ∧ (∀ w ∈ ready.ctl.waiting, ownerOf w.cmd w.operands ≠ .ctl)
      ∧ (∀ i : Fin 4, (ready.lanes[i]).cfg.activity = false) := by decide +kernel
theorem witness_SettingsBlockWritesTheItems_entries :
    EntryRefused [0x30, 0, 0, 0, 0, 0] ∧ (parseLaneConfig (entryConfig [0x93, 0x1E, 0x01, 0x23, 0x45, 0x6F])).isSome = true
      ∧ (entryTrap [0x9F, 0xFF, 0, 0, 0xFF, 0xFF]).isSome = true ∧ [(0x14 : Byte), 0, 0, 0].length = 4 := by
  and_intros <;> decide

/-- A two-seed image whose first seed is this one. -/
def twoSeeds (seed : List Byte) : Flash := Flash.writeAll (Flash.writeAll [] 5 [0, 2]) 144 seed
/-- Seed bytes for 0/72/5 of width 2 with this label length. -/
def seedOf (labelLength : Byte) : List Byte :=
  [0, 0x48, 0, 5, 2, 1, 1, 0, 0, 0x12, 0x34, 0, 0, 0xFF, 0xFF, labelLength] ++ List.replicate 12 0x20 ++ List.replicate 4 0
theorem witness_SeedIsApplied :
    Loads { Load.start .seeds with stage := .seeding }
        (servingAt .profile (withFlash (twoSeeds (seedOf 12)) (withLane 0 lane0 (loading .seeds .seeding ready))))
      ∧ (0 : Nat) + 1 < (twoSeeds (seedOf 12)).seedCount ∧ (oneSeed (seedOf 12)).seedCount ≤ (0 : Nat) + 1
      ∧ DeferredLaw ready ∧ OnlyReleasesWait { ready with ctl := { ready.ctl with waiting := [⟨.release, [], false⟩] } }
      ∧ (parseSeed ((twoSeeds (seedOf 12)).readAll 144 32)).key = ⟨0, 0x48, 5⟩
      ∧ keyFits lane0.cfg ⟨0, 0x48, 5⟩ = true ∧ (parseSeed ((twoSeeds (seedOf 12)).readAll 144 32)).width = lane0.cfg.w
      ∧ (parseSeed ((twoSeeds (seedOf 12)).readAll 144 32)).labelLength ≤ 12
      ∧ (∀ b ∈ (parseSeed ((twoSeeds (seedOf 12)).readAll 144 32)).labelBytes.take 12, 0x20 ≤ b.toNat ∧ b.toNat ≤ 0x7E)
      ∧ 12 < (parseSeed ((twoSeeds (seedOf 13)).readAll 144 32)).labelLength
      ∧ Machine.lookup ⟨0, 0x48, 5⟩ [newRecord ⟨0, 0x48, 5⟩ 2 0] = some (newRecord ⟨0, 0x48, 5⟩ 2 0)
      ∧ (∀ r ∈ [rec0], r.key ≠ ⟨0, 0x48, 5⟩) := by decide +kernel
/-- A load whose next seed names 0/72/5, in a part with this table. -/
def seedingInto (rs : List Record) : State :=
  servingAt .profile (withTable rs (withFlash (twoSeeds (seedOf 12)) (withLane 0 lane0 (loading .seeds .seeding ready))))
theorem seedingInto_table (rs : List Record) : (seedingInto rs).rte.table = rs := rfl
theorem witness_SeedIsApplied_evictable :
    (∀ r ∈ (seedingInto (fullTable id)).rte.table, r.key ≠ ⟨0, 0x48, 5⟩)
      ∧ (seedingInto (fullTable id)).rte.table.length = 1024
      ∧ ∃ r ∈ (seedingInto (fullTable id)).rte.table, r.pinned = false ∧ r.watch = none := by
  rw [seedingInto_table]
  exact ⟨fun _ => fullTable_not_aWrite, fullTable_length id, witness_SeedIsServed_evictable⟩
theorem witness_SeedIsApplied_law (s : State) : TableLaw (withTable (fullTable id) s) := fullTable_law id s
theorem witness_SeedIsApplied_protected :
    (∀ r ∈ (seedingInto (fullTable pinned)).rte.table, r.key ≠ ⟨0, 0x48, 5⟩)
      ∧ 1024 ≤ (seedingInto (fullTable pinned)).rte.table.length
      ∧ ∀ r ∈ (seedingInto (fullTable pinned)).rte.table, r.pinned = true ∨ r.watch.isSome := by
  rw [seedingInto_table]
  exact ⟨fun _ => fullTable_not_aWrite, (fullTable_length pinned).ge, witness_SeedIsServed_protected⟩
/-- R180, R189: the RELEASE that waits for the start-up load is answered with its result, and the panel comes ON. -/
theorem test_start_up_answers_the_release :
    after .imageJudgement { unreleased with
        pim := State.reset.pim, ctl := { unreleased.ctl with phase := .waiting, waiting := [⟨.release, [], false⟩] } }
      (fun t => t.ctl.txn.answer = [0xC3, 0, 0, 6, 0, 1, 0, 0, 0, 0] && t.ctl.waiting = [] && t.dse.panelOn) = true := by
  decide +kernel
/-- R159, R187: a deferred sleep-timer expiry begins sleep entry as the profile operation completes. -/
theorem test_deferred_expiry_begins_sleep_entry :
    after .commit (inOp (.store .commit) { ready with pwu := { ready.pwu with power := .dark, deferred := true } })
      (fun t => t.pwu.op = .sleepEntry && !t.pwu.deferred) = true := by decide
theorem witness_ImageIsJudged :
    (∀ sc s, ready = s → Loads { Load.start sc with stage := .reading } (loading sc .reading s))
      ∧ (Flash.writeAll [] 0 ready.storeImage.bytes).judge = .valid ∧ (withFlash [] ready).pim.flash.judge ≠ .valid
      ∧ (Flash.writeAll [] 0 (withTable [pinned rec0] ready).storeImage.bytes).judge = .valid
      ∧ (Load.start .seeds).next < (Flash.writeAll [] 0 (withTable [pinned rec0] ready).storeImage.bytes).seedCount
      ∧ (Flash.writeAll [] 0 ready.storeImage.bytes).seedCount ≤ (Load.start .seeds).next
      ∧ DeferredLaw ready ∧ DeferredLaw { ready with pwu := { ready.pwu with power := .dark, deferred := true } }
      ∧ OnlyReleasesWait { ready with ctl := { ready.ctl with waiting := [⟨.release, [], false⟩] } } := by
  refine ⟨?_, by decide +kernel, by decide +kernel, by decide +kernel, by decide +kernel, by decide +kernel, by decide,
    by decide, by decide⟩
  rintro sc s rfl
  exact ⟨rfl, rfl⟩
theorem witness_StoreStagesWriteTheFlash :
    ready.inReset = false ∧ FlashLaw ready ∧ DeferredLaw ready ∧ (inOp (.store .invalidate) ready).pim.op = .store .invalidate
      ∧ FlashLaw (withFlash [(0, 0x4E), (1, 0x57), (2, 0xB1), (3, 0), (4, 1)] ready)
      ∧ 4 ≤ [(0x4E : Byte), 0x57, 0xB1, 0xA8, 1].length ∧ (([(0, 1), (8335, 2)] : List Host.Cell).map (·.1)).Nodup
      ∧ (∀ a, a < 5 → a ≠ 3 → Flash.read [(0, 0x4E), (1, 0x57), (2, 0xB1), (3, 0), (4, 1)] a
          = [(0x4E : Byte), 0x57, 0xB1, 0xA8, 1].getD a 0)
      ∧ Flash.read [(0, 0x4E)] 4 ≠ [(0x4E : Byte), 0x57, 0xB1, 0xA8, 1].getD 4 0 := by decide
theorem witness_EpochExpiryClosesTheEpoch :
    ready.inReset = false ∧ ready.rte.epochTimer = true
      ∧ ({ ready with rte := { ready.rte with epochTimer := false } } : State).rte.epochTimer = false := by decide

/-- `ready` in this power state with this timer. -/
def timed (p : PowerState) (x : ChainTimer × Nat) : State := { ready with pwu := { ready.pwu with power := p, timer := some x } }
theorem witness_ChainTimersExpire :
    (timed .run (.dim, 1)).inReset = false ∧ (timed .run (.dim, 1)).pwu.power = .run
      ∧ (timed .run (.dim, 1)).pwu.timer = some (.dim, 1) ∧ (timed .dim (.dark, 255)).pwu.power = .dim
      ∧ (panelOn (timed .dim (.dark, 255))).dse.panelOn = true ∧ (timed .dim (.dark, 255)).dse.panelOn = false
      ∧ (timed .dark (.sleep, 1)).pwu.power = .dark ∧ (timed .dark (.sleep, 1)).pim.op = .none
      ∧ (timed .dark (.sleep, 1)).pwu.op = .none ∧ (inOp (.store .commit) (timed .dark (.sleep, 1))).pim.op ≠ .none
      ∧ (timed .dim (.dark, 255)).pwu.timer = some (.dark, 255) := by decide
theorem witness_ChainTimersExpire_stopped :
    (∀ n, ({ ready.pwu with timer := none } : Pwu).timer ≠ some (.dim, n))
      ∧ (∀ n, (timed .dim (.dark, 255)).pwu.timer ≠ some (.dim, n))
      ∧ (∀ n, (timed .dark (.sleep, 1)).pwu.timer ≠ some (.dark, n))
      ∧ ∀ n, (timed .dark (.dark, 1)).pwu.timer ≠ some (.sleep, n) :=
  ⟨nofun, fun _ => by simp [timed], fun _ => by simp [timed], fun _ => by simp [timed]⟩
/-- The part in wake with these commands taken while it is in flight (R167). -/
def deferring (ds : List Deferred) (s : State) : State :=
  { inPower .sleep .wake s with ctl := { s.ctl with phase := .waiting, deferred := ds } }
/-- A command as it stands deferred. -/
def Waiting.deferred (w : Waiting) : Deferred := ⟨w.cmd.code, Frame.ofOperands w.operands, w.cut⟩
/-- R167: a VIEW-OPTIONS taken while wake is in flight has its effect, and its answer, at the completion. -/
theorem test_wake_serves_what_was_deferred :
    after .wakeCompletion (deferring [⟨0x39, ⟨1, [16]⟩, false⟩] ready) (fun t =>
      t.dse.window = 15 && t.ctl.txn.answer = [0xC3, 0, 0, 1, 15] && t.ctl.deferred = []) = true := by decide
theorem witness_SleepAndWake :
    (lselHigh (inPower .dark .sleepEntry ready)).inReset = false ∧ (lselHigh (inPower .dark .sleepEntry ready)).pwu.op = .sleepEntry
      ∧ (lselHigh (inPower .dark .sleepEntry ready)).ctl.lselLow = false
      ∧ (lselHigh (inPower .dark .sleepEntry ready)).rte.serving = none
      ∧ (∀ i : Fin 4, ((lselHigh (inPower .dark .sleepEntry ready)).lanes[i]).slot = none
          ∧ ((lselHigh (inPower .dark .sleepEntry ready)).lanes[i]).request = none)
      ∧ (inPower .sleep .wake ready).pwu.op = .wake ∧ (inPower .sleep .wake ready).ctl.deferred = [].map Waiting.deferred
      ∧ (∀ w ∈ ([⟨.lookup, [0, 0, 0, 0], false⟩] : List Waiting),
          ownerOf w.cmd w.operands = .rte ∧ w.operands.length = w.cmd.operandLength)
      ∧ (deferring [⟨0x20, ⟨4, [0, 0, 0, 0]⟩, false⟩] ready).ctl.deferred
          = [⟨.lookup, [0, 0, 0, 0], false⟩].map Waiting.deferred
      ∧ (deferring [⟨0x39, ⟨1, [16]⟩, false⟩] ready).ctl.link = .ready
      ∧ (∀ w ∈ ready.ctl.waiting, ownerOf w.cmd w.operands ≠ .dse)
      ∧ (deferring [⟨0x39, ⟨1, [16]⟩, false⟩] unreleased).ctl.link = .held
      ∧ startUpDone (inPower .sleep .wake ready) = true ∧ (inPower .sleep .wake ready).dse.panelOn = false
      ∧ (inPower .sleep .none ready).pwu.power = .sleep
      ∧ (({ ready.pfe with probes := ready.pfe.probes.set 15 { Probe.reset with wake := some ⟨false, some ⟨true, 0⟩⟩ } }
          : Pfe).probes[15]).wake = some ⟨false, some ⟨true, 0⟩⟩ := by and_intros <;> decide
/-- The frame of LOOKUP 0/0/0 in wake, at the eighth rising edge of its last cell. -/
def deferredLookup : State :=
  { deferring [⟨0x20, ⟨4, [0, 0, 0, 0]⟩, false⟩] ready with
    ctl := { (deferring [⟨0x20, ⟨4, [0, 0, 0, 0]⟩, false⟩] ready).ctl with
      txn := Txn.ofFrame 0x20 ⟨4, [0, 0, 0, 0]⟩, cell := some takingCell } }
theorem witness_SleepAndWake_alone :
    deferredLookup.pwu.op = .wake ∧ deferredLookup.ctl.lselLow = true ∧ deferredLookup.ctl.phase = .waiting
      ∧ (⟨4, [0, 0, 0, 0]⟩ : Frame).wellFormed = true ∧ Cmd.ofByte 0x20 = some .lookup ∧ Cmd.ofByte 0x06 = none
      ∧ after .wakeCompletion { deferredLookup with ctl := { deferredLookup.ctl with deferred := [] } } (fun _ => true) = true := by
  decide
/-- R13, R14: RISING on a pin that is high while its record reads 0, with width 2, and with width 0. -/
theorem test_sleep_entry_judges_the_pin :
    (after .sleepEntryCompletion
        (let s := lselHigh (inPower .dark .sleepEntry ready)
        { s with
          pwu := { s.pwu with wakeEdges := (s.pwu.wakeEdges.set 7 .rising).set 8 .rising }
          pfe := { s.pfe with banks := #v[⟨80, 2⟩, ⟨80, 0⟩], pins := (s.pfe.pins.set 7 1600).set 8 1600 } })
        fun t => t.pfe.probes[7].wake = some ⟨false, some ⟨true, 2⟩⟩ && t.pfe.probes[8].wake = some ⟨true, none⟩
          && t.pwu.op = .wake && t.pwu.wakePending.probes = 0x100) = true := by decide
theorem witness_SleepAndWake_units : ∀ p, unitWaits (lselHigh (inPower .dark .sleepEntry ready)) p = false
  | .lane i => by revert i; decide
  | .link | .display | .profile => rfl

/-- `ready` with this candidate of the hold key. -/
def keyed (c : Option KeyCandidate) (p : PowerState) : State :=
  { ready with pwu := { ready.pwu with keyCandidate := c, power := p } }
theorem witness_HoldKeyIsDebounced :
    (keyed none .run).inReset = false ∧ (keyed none .run).pwu.keyCandidate = none
      ∧ (keyed (some ⟨true, true⟩) .run).pwu.keyCandidate = some ⟨true, true⟩
      ∧ (keyed (some ⟨true, false⟩) .run).pwu.keyCandidate = some ⟨true, false⟩ ∧ (keyed (some ⟨true, false⟩) .run).pwu.power = .run
      ∧ (keyed (some ⟨true, false⟩) .run).pwu.op = .none ∧ (keyed (some ⟨true, false⟩) .sleep).pwu.power = .sleep
      ∧ (keyed (some ⟨true, false⟩) .dim).pwu.power = .dim ∧ (keyed (some ⟨true, false⟩) .dark).pwu.power = .dark
      ∧ (keyed (some ⟨true, false⟩) .dark).dse.panelOn = false ∧ ready.pwu.keyActivity = true
      ∧ (inPower .dark .sleepEntry (keyed (some ⟨true, false⟩) .dark)).pwu.op ≠ .wake
      ∧ ({ ready.pwu with keyActivity := false } : Pwu).keyActivity = false := by decide
theorem witness_PanelEvents :
    ready.inReset = false ∧ (panelOn ready).dse.refreshTimer = some 100 ∧ (panelOn ready).dse.refresh = none
      ∧ ready.dse.refreshTimer = none
      ∧ ({ ready.dse with port := [.line 16 [0x41]] } : Dse).port = .line 16 [0x41] :: []
      ∧ ({ ready.dse with port := [.panelOff] } : Dse).port = .panelOff :: []
      ∧ (panelOn ready).dse.panelOn = true ∧ ready.pwu.power = .run ∧ (inPower .dim .none ready).pwu.power = .dim
      ∧ (inPower .dark .none ready).pwu.power = .dark ∧ ready.dse.panelOn = false := by decide
theorem witness_ProbesAreFiltered :
    ready.inReset = false ∧ ready.pwu.power ≠ .sleep ∧ (inPower .dark .sleepEntry ready).pwu.power ≠ .sleep
      ∧ (inPower .dark .sleepEntry ready).pwu.op = .sleepEntry ∧ (inPower .sleep .none ready).inReset = false
      ∧ (inPower .sleep .none ready).pwu.power = .sleep := by decide

/-- The levels with only these probes high. -/
def highs (ps : List (Fin 16)) : Levels := fun i => ps.contains i
/-- Lane 0 of 3.8 with W = 1, inside a transfer. -/
def laneW1 : Lane := { lane0 with cfg := { lane0.cfg with w := 1 }, state := .inFrame }
theorem witness_TwoWireWritePosts :
    laneW1.decodesTransfer = true ∧ highs [1] laneW1.cfg.pins.twoClock = false ∧ highs [0, 1] laneW1.cfg.pins.twoClock = true
      ∧ laneW1.state = .inFrame ∧ laneW1.two = ⟨[], none, .address, none⟩ ∧ laneW1.cfg.w = 1 ∧ laneW1.cfg.a = 1
      ∧ laneW1.cfg.tenBit = false ∧ laneW1.slot = none ∧ (0x48 : BitVec 7) ≠ 0 := by decide
/-- Lane 0 with ten-bit addressing, W = 4, A = 2, in a transfer in this phase, its pointer table holding 0x150 and 0x48. -/
def laneTen (ph : TwoPhase) : Lane :=
  { laneW1 with
    cfg := { laneW1.cfg with tenBit := true, w := 4, a := 2 }
    two := ⟨[], none, ph, some (1#2 ++ 0x50#8)⟩, pointers := [(0x150, 0xFFFF), (0x48, 5)] }
theorem witness_TwoWireWritePosts_bytes :
    (laneTen .address).two.bits = [] ∧ (laneTen .address).two.phase = .address
      ∧ ¬ ((laneTen .address).cfg.tenBit = true ∧ (0x48 : BitVec 7).extractLsb' 2 5 = 0x1E)
      ∧ ((laneTen .address).pointers.find? fun e => e.1 = (0x48 : BitVec 7).setWidth 10) = some ((0x48 : BitVec 7).setWidth 10, 5)
      ∧ (laneTen .address).cfg.tenBit = true ∧ (laneTen .address).two.frameTarget = some (1#2 ++ 0x50#8)
      ∧ ((laneTen .address).pointers.find? fun e => e.1 = 1#2 ++ 0x50#8) = some (1#2 ++ 0x50#8, 0xFFFF)
      ∧ laneW1.two.frameTarget = none
      ∧ (laneTen (.pointer 0x48 [])).two.phase = .pointer 0x48 [] ∧ ([] : List Byte).length + 1 < (laneTen .address).cfg.a
      ∧ [(0x12 : Byte)].length + 1 = (laneTen .address).cfg.a
      ∧ (laneTen (.data 0x150 .read [1, 2, 3])).two.phase = .data 0x150 .read [1, 2, 3]
      ∧ ((laneTen .address).pointers.find? fun e => e.1 = 0x150) = some (0x150, 0xFFFF)
      ∧ [(1 : Byte), 2].length + 1 < (laneTen .address).cfg.w ∧ [(1 : Byte), 2, 3].length + 1 = (laneTen .address).cfg.w := by
  and_intros <;> decide
theorem witness_TwoWireWritePosts_unknown :
    (∀ e ∈ (laneTen .address).pointers, e.1 ≠ (0x49 : BitVec 7).setWidth 10)
      ∧ ∀ e ∈ (laneTen .address).pointers, e.1 ≠ 2#2 ++ 0x50#8 := by simp [laneTen]
/-- Lane 1 of 4.9 with two selects on probes 9 and 10. -/
def lane1Pins : Lane :=
  { lane1 with
    state := .idle, four := FourWire.cleared
    cfg := { lane1.cfg with pins := { lane1.cfg.pins with fourClock := 8, sel := #v[9, 10, 0, 0], cdat := 11, tdat := 12 } } }
theorem witness_FramesOpenAndClose :
    lane0.cfg.kind = .twoWire ∧ highs [0, 1] lane0.cfg.pins.twoClock = true ∧ highs [0] lane0.cfg.pins.twoClock = true
      ∧ highs [0, 1] lane0.cfg.pins.twoData = true ∧ highs [0] lane0.cfg.pins.twoData = false ∧ lane0.state = .idle
      ∧ laneW1.state = .inFrame
      ∧ ({ laneW1 with two := ⟨[], none, .data 0x48 .write [1], none⟩ } : Lane).two.phase = .data 0x48 .write [1]
      ∧ ({ laneW1 with two := ⟨[true], none, .data 0x48 .write [], none⟩ } : Lane).two.bits = true :: []
      ∧ ({ laneW1 with two := ⟨[], none, .ignore (some [1]), none⟩ } : Lane).two.phase = .ignore (some [1])
      ∧ lane1Pins.cfg.kind = .fourWire ∧ (1 : Fin 4).val < lane1Pins.cfg.selectCount ∧ lane1Pins.state = .idle
      ∧ (∀ n : Fin 4, n.val < lane1Pins.cfg.selectCount → highs [9, 10] (lane1Pins.cfg.pins.sel[n]) = true
          ∧ (highs [9] (lane1Pins.cfg.pins.sel[n]) = false ↔ n = 1)) := by and_intros <;> decide
/-- Lane 1 in a DATA frame of target 1, three bits taken, the clock high in clock mode 0. -/
def lane1Data : Lane :=
  { lane1Pins with state := .inFrame, four := ⟨true, [true, true, true], [], 1, .data ⟨.read, false, 5⟩ []⟩ }
theorem witness_FramesOpenAndClose_close :
    lane1Data.state = .inFrame ∧ lane1Data.four.phase = .data ⟨.read, false, 5⟩ [] ∧ lane1Data.four.target = 1
      ∧ highs [8, 9] lane1Data.cfg.pins.fourClock = highs [8, 9, 10] lane1Data.cfg.pins.fourClock
      ∧ highs [8, 9, 10] lane1Data.cfg.pins.fourClock ≠ idleLevel lane1Data.cfg.clockMode
      ∧ (∀ n : Fin 4, n.val < lane1Data.cfg.selectCount → n ≠ 1 → highs [8, 9] (lane1Data.cfg.pins.sel[n]) = true)
      ∧ highs [8, 9] (lane1Data.cfg.pins.sel[(1 : Fin 4)]) = false ∧ lane1Data.four.cBits ≠ []
      ∧ highs [8, 9, 10] (lane1Data.cfg.pins.sel[(1 : Fin 4)]) = true
      ∧ (0 : Fin 4).val < lane1Data.cfg.selectCount ∧ highs [8] (lane1Data.cfg.pins.sel[(0 : Fin 4)]) = false
      ∧ highs [8] (lane1Data.cfg.pins.sel[(1 : Fin 4)]) = false
      ∧ highs [8] lane1Data.cfg.pins.fourClock = highs [8, 9] lane1Data.cfg.pins.fourClock := by and_intros <;> decide
theorem witness_FramesOpenAndClose_contended :
    (0 : Fin 4) ≠ 1 ∧ (0 : Fin 4).val < lane1Pins.cfg.selectCount ∧ (1 : Fin 4).val < lane1Pins.cfg.selectCount
      ∧ (∀ n : Fin 4, n.val < lane1Pins.cfg.selectCount → highs [9, 10] (lane1Pins.cfg.pins.sel[n]) = true)
      ∧ highs [] (lane1Pins.cfg.pins.sel[(0 : Fin 4)]) = false ∧ highs [] (lane1Pins.cfg.pins.sel[(1 : Fin 4)]) = false
      ∧ (∃ n : Fin 4, n.val < lane1Data.cfg.selectCount ∧ highs [9] (lane1Data.cfg.pins.sel[n]) = false)
      ∧ (∃ n : Fin 4, n.val < lane1Data.cfg.selectCount ∧ highs [9] (lane1Data.cfg.pins.sel[n]) = false
        ∧ highs [] (lane1Data.cfg.pins.sel[n]) = false)
      ∧ lane1Data.four.phase ≠ .contended ∧ lane1Data.four.target.val < lane1Data.cfg.selectCount
      ∧ highs [9] (lane1Data.cfg.pins.sel[lane1Data.four.target]) = false
      ∧ highs [9] lane1Data.cfg.pins.fourClock = highs [9, 10] lane1Data.cfg.pins.fourClock
      ∧ ({ lane1Data with state := .seeking } : Lane).state = .seeking
      ∧ ({ lane1Data with four := ⟨true, [], [], 1, .contended⟩ } : Lane).four.phase = .contended
      ∧ ({ lane1Data with four := ⟨true, [], [], 1, .contended⟩ } : Lane).four.armed = true := by and_intros <;> decide
/-- Lane 1 with A = 2, W = 4, LSB first, READ-IS-ZERO, FLAG and latency 3, its frame just open. -/
def laneFour : Lane :=
  { lane1 with
    cfg := { lane1.cfg with w := 4, a := 2, bitOrder := .lsbFirst, polarity := .readIsZero, autoinc := .flag, latency := 3 }
    four := ⟨true, [], [], 1, .command []⟩ }
theorem witness_FourWireFramePosts :
    laneFour.state = .inFrame ∧ laneFour.four = ⟨true, [], [], 1, .command []⟩
      ∧ [((0x7F : Byte), (0 : Byte)), (0xFF, 0)].length = laneFour.cfg.a ∧ laneFour.cfg.a = 2
      ∧ (List.replicate 4 ((1 : Byte), (2 : Byte))).length = laneFour.cfg.w ∧ laneFour.cfg.w = 4
      ∧ (0x7FFF : Nat).testBit (8 * laneFour.cfg.a - 1) = false
      ∧ (List.replicate 3 ((0 : Byte), (0 : Byte))).length = laneFour.cfg.latency ∧ laneFour.slot = none := by decide
/-- The frame of select 1 on two selects in each clock mode, a sampling edge with the release, and with a hand-over to 0. -/
theorem witness_FourWireFramePosts_edges :
    lane1Data.cfg.kind = .fourWire ∧ lane1Data.four.target.val < lane1Data.cfg.selectCount
      ∧ (∀ n : Fin 4, n.val < lane1Data.cfg.selectCount →
        (highs [9] (lane1Data.cfg.pins.sel[n]) = false ↔ n = lane1Data.four.target))
      ∧ (∀ mode : Fin 4, (mode.val, decide (2 ≤ mode.val), decide (mode.val = 0 ∨ mode.val = 3)) ∈
        [(0, false, true), (1, false, false), (2, true, false), (3, true, true)])
      ∧ (∀ n : Fin 4, n.val < lane1Data.cfg.selectCount →
        highs [8, 9] (lane1Data.cfg.pins.sel[n]) = highs [9] (lane1Data.cfg.pins.sel[n]))
      ∧ (∀ n : Fin 4, n.val < lane1Data.cfg.selectCount → highs [8, 9, 10] (lane1Data.cfg.pins.sel[n]) = true)
      ∧ (0 : Fin 4).val < lane1Data.cfg.selectCount ∧ (0 : Fin 4) ≠ lane1Data.four.target
      ∧ (∀ n : Fin 4, n.val < lane1Data.cfg.selectCount →
        (highs [8, 10] (lane1Data.cfg.pins.sel[n]) = false ↔ n = 0)) := by and_intros <;> decide
/-- R58, R62 to R66: LSB first, READ-IS-ZERO, FLAG with the increment bit at the top of its range, latency 3, W = 4, BIG. -/
theorem test_four_wire_settings :
    ([(0x7F, 0), (0xFF, 0), (9, 9), (9, 9), (9, 9), (0, 1), (0, 2), (0, 3), (0, 4)].flatMap fun x : Byte × Byte =>
        (byteBits x.1).reverse.zip (byteBits x.2).reverse).foldl (fun l x => l.fourBit 1 x.1 x.2)
          { laneFour with cfg := { laneFour.cfg with byteOrder := .big } }
      = { laneFour with
          cfg := { laneFour.cfg with byteOrder := .big }
          slot := some ⟨⟨1, 1, 0x3FFF⟩, .read, 0x01020304, 4⟩
          four := ⟨true, [], [], 1, .data ⟨.read, true, 0⟩ []⟩ } := by decide +kernel
/-- Lane 2 in IDLE with its start mark set. -/
def laneMgmt : Lane := { lane2 with state := .idle, mgmt := ⟨32, true, .operation []⟩ }
theorem witness_ManagementFramePosts :
    laneMgmt.state = .idle ∧ laneMgmt.mgmt.startMark = true ∧ laneMgmt.slot = none ∧ lane2.cfg.kind = .management
      ∧ lane2.state ≠ .off ∧ lane2.state = .seeking ∧ ({ lane2 with state := .idle } : Lane).mgmt.startMark = false
      ∧ ({ lane2 with state := .idle } : Lane).state = .idle := by decide

/-! ### The invariants, each with a step from reset -/

/-- State.reset with an epoch expiry at the front of its queue. -/
def queued : State := State.reset.withPending [.epochExpiry]
theorem queued_steps : (match step queued with
    | .next t => decide (t.rte.epoch = 1)
    | .fault _ | .refused _ => false) = true := by decide
theorem reset_binding : BindingLaw queued := by
  refine ⟨?_, fun r h => absurd h List.not_mem_nil⟩
  intro i k h
  rw [show queued.wta.slots[i] = .free by clear h; revert i; decide] at h
  cases h
theorem witness_TableAndBindingsHold : TableLaw queued ∧ BindingLaw queued := ⟨by decide, reset_binding⟩
theorem witness_RecordsHold : RecordLaw queued := ⟨by decide, fun _ h => absurd h List.not_mem_nil⟩
theorem witness_CaptureAndFlashHold : CaptureLaw queued ∧ FlashLaw queued := by decide
theorem witness_PowerAndPanelHold : PowerLaw queued ∧ PanelLaw queued := by
  refine ⟨⟨by decide, by decide, by decide, ?_, by decide⟩, by decide⟩
  intro t n h
  obtain ⟨rfl, rfl⟩ : ChainTimer.dim = t ∧ 30 = n := by simpa [queued, State.reset, Pwu.reset] using h
  decide
theorem witness_LanesAndWidthsHold : TableLaw queued ∧ LanesLaw queued ∧ WidthLaw queued := by
  refine ⟨by decide, ?_, fun _ h => absurd h List.not_mem_nil⟩
  intro i
  rw [show queued.lanes[i] = Lane.reset by revert i; decide]
  refine ⟨by decide, by decide, by decide, by decide, nofun, by decide, by decide⟩
theorem witness_SettingsHold : SettingsLaw queued := by decide
theorem witness_LinkHolds : LinkLaw queued := by decide

end Sys2Proof.Tests
end

section
/-! SUPPORT. Retirement of several records at once, and the table commands that retire, served at LINK (R99, R112, R113,
R126). -/

namespace Sys2Proof.Machine

/-! ### Service at LINK -/

/-- The served row of a command of the RTE answers the state that its service, its answer and the end of the LINK unit give
(R89, R176). -/
theorem live_commandServed_link {c : Cmd} {ops : List Byte} {s : State} (h : WaitsAtLink c ops s)
    (hc : ownerOf c ops = .rte) :
    live (commandAt .served c (Frame.ofOperands ops)) s
      = .next (settle (finishUnit .link (sendAnswer (some c) (serve c ops (dequeue ⟨c, ops, false⟩ s)).2
          (serve c ops (dequeue ⟨c, ops, false⟩ s)).1))) := by
  have ⟨⟨running, _⟩, _⟩ := h
  rw [live_next running, commandAt, commandServed_link h hc]

/-- A command that does not reset the part, with no effect but its answer, leaves what `servedAtLink` gives (R89, R176). -/
theorem finishUnit_sendAnswer {c : Cmd} (hc : c ≠ .restart) (ops : List Byte) (a : Answer) (s : State) :
    finishUnit .link (sendAnswer (some c) a (dequeue ⟨c, ops, false⟩ s)) = servedAtLink c ops a s := by
  simp [finishUnit_eq, sendAnswer, dequeue, servedAtLink, servedCtl, hc, State.setCtl, State.setRte]

/-- A command served at LINK with no effect but its answer. -/
theorem live_commandServed_answer {c : Cmd} {ops : List Byte} {a : Answer} {s : State} (h : WaitsAtLink c ops s)
    (hc : ownerOf c ops = .rte) (hs : serve c ops (dequeue ⟨c, ops, false⟩ s) = (dequeue ⟨c, ops, false⟩ s, a)) :
    live (commandAt .served c (Frame.ofOperands ops)) s = .next (settle (servedAtLink c ops a s)) := by
  have noReset : c ≠ .restart := by
    rintro rfl
    cases hc
  rw [live_commandServed_link h hc, hs, finishUnit_sendAnswer noReset]

/-- As many bytes as the operands have, from offset 0, are the operands. -/
theorem bytesAt_all {ops : List Byte} {n : Nat} (h : ops.length = n) : bytesAt ops 0 n = ops := by
  simp [bytesAt, ← h]

/-! ### The slots -/

/-- The slots once the one that watches the record, if any, has had the report of its retirement (R126). -/
def tellRetired (slots : Vector Slot 8) (r : Record) : Vector Slot 8 :=
  match r.watch with
  | none => slots
  | some i => modifyAt slots i Slot.retired

/-- The report of a retirement, slot state by slot state (R126). -/
theorem Slot.retired_eq (x : Slot) : x.retired = match x with
    | .armed _ => .free
    | .pending k v missed t => .detached k (some v) missed t
    | x => x := by
  cases x <;> rfl

/-- A second report of retirement changes nothing. -/
@[simp] theorem Slot.retired_retired (x : Slot) : x.retired.retired = x.retired := by
  cases x <;> rfl

/-- A slot bound to no record disregards a report of retirement. -/
theorem Slot.retired_unbound {x : Slot} (h : x.boundKey = none) : x.retired = x := by
  cases x with
  | free | detached => rfl
  | armed | pending => cases h

theorem tellRetired_get (slots : Vector Slot 8) (r : Record) (i : Fin 8) :
    (tellRetired slots r)[i] = if r.watch = some i then (slots[i]).retired else slots[i] := by
  unfold tellRetired
  cases r.watch with
  | none => rfl
  | some j =>
    rw [modifyAt_get]
    by_cases h : j = i
    · subst h
      simp
    · simp [h]

/-- After the reports of several retirements, a slot that one of the records names has had its report. -/
theorem foldl_tellRetired_get (rs : List Record) (slots : Vector Slot 8) (i : Fin 8) :
    (rs.foldl tellRetired slots)[i] = if ∃ r ∈ rs, r.watch = some i then (slots[i]).retired else slots[i] := by
  induction rs generalizing slots with
  | nil => simp
  | cons r rs ih =>
    rw [List.foldl_cons, ih, tellRetired_get]
    by_cases h : r.watch = some i <;> simp [h]

/-! ### The table -/

/-- Two records of the table with one key are the same record (R85). -/
theorem TableLaw.record_inj {s : State} (h : TableLaw s) {a b : Record} (ha : a ∈ s.rte.table) (hb : b ∈ s.rte.table)
    (hk : a.key = b.key) : a = b :=
  List.inj_on_of_nodup_map (h.2.imp fun hlt => hlt.ne) ha hb (congrArg Key.num hk)

/-- Retirement of several records takes those with their keys from the table and tells the slots (R99, R126). -/
theorem retireAll_eq (rs : List Record) (s : State) :
    retireAll rs s
      = (s.setRte { s.rte with table := s.rte.table.filter fun x => rs.all fun r => x.key ≠ r.key }).setWta
          { s.wta with slots := rs.foldl tellRetired s.wta.slots } := by
  induction rs generalizing s with
  | nil => simp [retireAll, State.setRte, State.setWta]
  | cons r rs ih =>
    have step : retireAll (r :: rs) s = retireAll rs (retireRecord r s) := rfl
    have told : retireRecord r s = (s.setRte { s.rte with table := removeRecord r.key s.rte.table }).setWta
        { s.wta with slots := tellRetired s.wta.slots r } := retireRecord_eq r s
    rw [step, ih, told]
    simp [State.setRte, State.setWta, removeRecord, List.filter_filter, Bool.and_comm]

/-- Under the table law, the records that stay when those that meet `p` are retired are those that do not meet it. -/
theorem filter_retired_keys {s : State} (h : TableLaw s) (p : Record → Bool) :
    (s.rte.table.filter fun x => (s.rte.table.filter p).all fun r => x.key ≠ r.key) = s.rte.table.filter fun x => !p x := by
  refine List.filter_congr fun x hx => ?_
  rw [Bool.eq_iff_iff]
  simp only [List.all_eq_true, List.mem_filter, decide_eq_true_eq, Bool.not_eq_true']
  constructor
  · intro hall
    by_contra hp
    exact hall x ⟨hx, by simpa using hp⟩ rfl
  · rintro hp r ⟨hr, hpr⟩ hk
    rw [h.record_inj hx hr hk, hpr] at hp
    cases hp

/-- Retirement of every record that meets `p` leaves the others in the table (R99). -/
theorem retireAll_filter {s : State} (h : TableLaw s) (p : Record → Bool) :
    retireAll (s.rte.table.filter p) s
      = (s.setRte { s.rte with table := s.rte.table.filter fun x => !p x }).setWta
          { s.wta with slots := (s.rte.table.filter p).foldl tellRetired s.wta.slots } := by
  rw [retireAll_eq, filter_retired_keys h]

/-- The slots after the retirement of every record that meets `p`: under the binding law the slots that have had a report are
those bound to one of these records (R118, R126). -/
theorem slotsAfterRetirement_filter {s : State} (h : TableLaw s) (hb : BindingLaw s) (p : Record → Bool) :
    SlotsAfterRetirement (s.rte.table.filter fun x => !p x) s ((s.rte.table.filter p).foldl tellRetired s.wta.slots) := by
  obtain ⟨slotBound, recordBound⟩ := hb
  intro i
  rw [foldl_tellRetired_get]
  cases hk : (s.wta.slots[i]).boundKey with
  | none => rw [Slot.retired_unbound hk, ite_self]
  | some k =>
    obtain ⟨b, hbt, hbk, hbw⟩ := slotBound i k hk
    have only : ∀ r ∈ s.rte.table, r.key = k → r = b := fun r hr hrk => h.record_inj hr hbt (hrk.trans hbk.symm)
    have told : (∃ r ∈ s.rte.table.filter p, r.watch = some i) ↔ p b = true := by
      constructor
      · rintro ⟨r, hr, hw⟩
        obtain ⟨hrt, hp⟩ := List.mem_filter.1 hr
        have hrk := (recordBound r hrt i hw).symm.trans hk
        rwa [← only r hrt (Option.some.inj hrk)]
      · exact fun hp => ⟨b, List.mem_filter.2 ⟨hbt, hp⟩, hbw⟩
    have stays : (s.rte.table.filter fun x => !p x).any (fun r => r.key = k) = !p b := by
      rw [Bool.eq_iff_iff]
      simp only [List.any_eq_true, List.mem_filter, decide_eq_true_eq]
      constructor
      · rintro ⟨r, ⟨hrt, hp⟩, hrk⟩
        rwa [← only r hrt hrk]
      · exact fun hp => ⟨b, ⟨hbt, hp⟩, hbk⟩
    simp only [told, stays]
    cases p b <;> rfl

/-! ### RETIRE -/

/-- RETIRE of a key without a record (R112). -/
theorem serveRetire_absent {ops : List Byte} {s : State} (hl : profileLoadInFlight s = false)
    (hk : lookup (keyOf (bytesAt ops 0 4)) s.rte.table = none) : serveRetire ops s = (s, ⟨.noRecord, []⟩) := by
  simp [serveRetire, hl, hk, Answer.refuse]

/-- RETIRE of a key with a record, pinned or watched or not (R112). -/
theorem serveRetire_present {ops : List Byte} {r : Record} {s : State} (hl : profileLoadInFlight s = false)
    (hk : lookup (keyOf (bytesAt ops 0 4)) s.rte.table = some r) : serveRetire ops s = (retireRecord r s, ⟨.ok, []⟩) := by
  simp [serveRetire, hl, hk]

/-- RETIRE without a record, at its row. -/
theorem exec_retire_absent {ops : List Byte} {s : State} (h : WaitsAtLink .retire ops s)
    (hl : profileLoadInFlight s = false) (hk : lookup (keyOf ops) s.rte.table = none) :
    exec (.retire .served (Frame.ofOperands ops)) s = .next (settle (servedAtLink .retire ops ⟨.noRecord, []⟩ s)) := by
  have ⟨⟨_, _, hlen, _⟩, _⟩ := h
  rw [← bytesAt_all hlen] at hk
  exact live_commandServed_answer h rfl (serveRetire_absent hl hk)

/-- RETIRE of a record, at its row. -/
theorem exec_retire_present {ops : List Byte} {r : Record} {s : State} (h : WaitsAtLink .retire ops s)
    (hl : profileLoadInFlight s = false) (hk : lookup (keyOf ops) s.rte.table = some r) :
    exec (.retire .served (Frame.ofOperands ops)) s = .next (settle
      { servedAtLink .retire ops ⟨.ok, []⟩ s with
        rte := { s.rte with last := .link, serving := none, table := removeRecord (keyOf ops) s.rte.table }
        wta := { s.wta with slots := tellRetired s.wta.slots r } }) := by
  have ⟨⟨_, _, hlen, _⟩, _⟩ := h
  have hkey := lookup_key hk
  rw [← bytesAt_all hlen] at hk
  have hs : serve .retire ops (dequeue ⟨.retire, ops, false⟩ s)
      = (retireRecord r (dequeue ⟨.retire, ops, false⟩ s), ⟨.ok, []⟩) := serveRetire_present hl hk
  have hrow := live_commandServed_link h rfl
  rw [hs, retireRecord_eq, hkey] at hrow
  exact hrow

/-! ### CLEAR-TABLE -/

/-- CLEAR-TABLE with an operand above 1 (R113, R196). -/
theorem serveClearTable_refused {ops : List Byte} {s : State} (hl : profileLoadInFlight s = false)
    (ho : 1 < byteAt ops 0) : serveClearTable ops s = (s, ⟨.badOperand, []⟩) := by
  simp [serveClearTable, hl, flagOf_none.2 ho, Answer.refuse]

/-- CLEAR-TABLE that is accepted (R113). -/
theorem serveClearTable_accepted {ops : List Byte} {s : State} (hl : profileLoadInFlight s = false)
    (ho : byteAt ops 0 ≤ 1) : serveClearTable ops s
      = (retireAll (clearScope (byteAt ops 0 = 1) s.rte.table) s,
        ⟨.ok, beBytes 2 (clearScope (byteAt ops 0 = 1) s.rte.table).length⟩) := by
  simp [serveClearTable, hl, flagOf_some ho]

/-- The record is outside the scope of the CLEAR-TABLE exactly when it is pinned and only unpinned ones go (R113). -/
theorem not_inClearScope {n : Nat} (h : n ≤ 1) (r : Record) :
    (!(decide (n = 1) || !r.pinned)) = (decide (n = 0) && r.pinned) := by
  have : n = 0 ∨ n = 1 := by omega
  rcases this with rfl | rfl <;> simp

/-- The answer of CLEAR-TABLE counts the records that do not stay (R113). -/
theorem length_clearScope {n : Nat} (h : n ≤ 1) (t : List Record) :
    (clearScope (n = 1) t).length = t.length - (t.filter fun r => n = 0 && r.pinned).length := by
  have parts := List.length_eq_length_filter_add (l := t) fun r => decide (n = 1) || !r.pinned
  simp only [not_inClearScope h] at parts
  rw [clearScope]
  omega

/-- The slots after an accepted CLEAR-TABLE (R113, R126). -/
theorem slotsAfterRetirement_clearScope {n : Nat} {s : State} (h : n ≤ 1) (ht : TableLaw s) (hb : BindingLaw s) :
    SlotsAfterRetirement (s.rte.table.filter fun r => n = 0 && r.pinned) s
      ((clearScope (n = 1) s.rte.table).foldl tellRetired s.wta.slots) := by
  simpa only [clearScope, not_inClearScope h] using slotsAfterRetirement_filter ht hb fun r => decide (n = 1) || !r.pinned

/-- CLEAR-TABLE at its row: the records that stay, the slots as the reports leave them, and the count of those retired. -/
theorem exec_clearTable_accepted {ops : List Byte} {s : State} (h : WaitsAtLink .clearTable ops s) (ht : TableLaw s)
    (hl : profileLoadInFlight s = false) (ho : byteAt ops 0 ≤ 1) :
    exec (.clearTable .served (Frame.ofOperands ops)) s = .next (settle
      { servedAtLink .clearTable ops ⟨.ok, beBytes 2 (clearScope (byteAt ops 0 = 1) s.rte.table).length⟩ s with
        rte := { s.rte with
          last := .link, serving := none, table := s.rte.table.filter fun r => byteAt ops 0 = 0 && r.pinned }
        wta := { s.wta with
          slots := (clearScope (byteAt ops 0 = 1) s.rte.table).foldl tellRetired s.wta.slots } }) := by
  have hs : serve .clearTable ops (dequeue ⟨.clearTable, ops, false⟩ s) = _ := serveClearTable_accepted hl ho
  have hrow := live_commandServed_link h rfl
  have hkept := retireAll_filter (s := dequeue ⟨.clearTable, ops, false⟩ s) ht
    fun r => decide (byteAt ops 0 = 1) || !r.pinned
  simp only [not_inClearScope ho] at hkept
  rw [hs] at hrow
  unfold clearScope at hrow
  rw [hkept] at hrow
  exact hrow

/-! ### The obligation -/

/-- Settles O28: RETIRE by `exec_retire_absent` and `exec_retire_present`, CLEAR-TABLE by `exec_clearTable_accepted`, its
slots by the binding law (`slotsAfterRetirement_clearScope`). -/
theorem retirementsAreServed : Obligations.RetirementsAreServed := by
  unfold Obligations.RetirementsAreServed
  rintro s ops f rfl hl
  refine ⟨fun h => ⟨exec_retire_absent h hl, fun r hk => ?_⟩,
    fun h ht => ⟨fun ho => live_commandServed_answer h rfl (serveClearTable_refused hl ho), ?_⟩⟩
  · rw [exec_retire_present h hl hk]
    unfold tellRetired
    cases r.watch with
    | none => rfl
    | some i => simp only [modifyAt, Slot.retired_eq]; rfl
  · rintro _ ho rfl
    rw [← length_clearScope ho]
    exact ⟨_, exec_clearTable_accepted h ht hl ho, slotsAfterRetirement_clearScope ho ht⟩

end Sys2Proof.Machine
end

section
/-! SUPPORT. The commands of the WTA, which are served as they are taken (R175, R176), the bits of the cause set, and the
attention commands with the ATTN output (R132, R134 to R136). -/

namespace Sys2Proof.Machine

/-! ### Commands of the WTA, at their taking -/

theorem readyAtOnce_wta {c : Cmd} {ops : List Byte} (s : State) (h : ownerOf c ops = .wta) : readyAtOnce c ops s = true := by
  cases c <;> first | rfl | cases h

/-- The answer to a command of the WTA leaves nothing for the rise of LSEL (R170, R183): its transaction record holds the
answer and no mark. -/
theorem sendAnswer_wta {c : Cmd} {ops : List Byte} {a : Answer} {s t : State} (h : ownerOf c ops = .wta)
    (ht : t.ctl = (taken c ops s).ctl) :
    sendAnswer (some c) a t = t.setCtl (answeredAtOnce c.code (Frame.ofOperands ops) a s).ctl := by
  simp only [sendAnswer, ht, taken, answeredAtOnce, answeredTxn, Txn.ofFrame]
  cases c <;> first | rfl | cases h

/-- A command of the WTA taken in RUN is served at once: its row gives what the service leaves, with the answer sent (R174 to
R176). -/
theorem live_commandTaken_wta {c : Cmd} {ops : List Byte} {a : Answer} {s t : State} (h : Hears c ops s)
    (ho : ownerOf c ops = .wta) (hs : serve c ops (taken c ops s) = (t, a)) (ht : t.ctl = (taken c ops s).ctl) :
    live (commandTaken c.code (Frame.ofOperands ops)) s
      = .next (settle (t.setCtl (answeredAtOnce c.code (Frame.ofOperands ops) a s).ctl)) := by
  have ⟨⟨running, _⟩, _⟩ := h
  have other {d : Cmd} (hd : ownerOf d ops ≠ .wta) : c ≠ d := fun hc => hd (hc ▸ ho)
  have sameQueue : (serve c ops (taken c ops s)).1.ctl.waiting = s.ctl.waiting := by rw [hs, ht]; rfl
  rw [live_next running, commandTaken_served h (other nofun) (other nofun) (other nofun) (readyAtOnce_wta _ ho) sameQueue,
    hs, sendAnswer_wta ho ht]

/-! ### The cause set -/

/-- A set meets another exactly when some bit is in both. -/
theorem and_bne_zero_iff {w : Nat} {a b : BitVec w} :
    (a &&& b != 0) = true ↔ ∃ n : Fin w, a.getLsbD n = true ∧ b.getLsbD n = true := by
  rw [bne_iff_ne]
  constructor
  · intro meets
    by_contra! apart
    refine meets (BitVec.eq_of_getLsbD_eq fun n hn => ?_)
    simpa using apart ⟨n, hn⟩
  · rintro ⟨n, ha, hb⟩ apart
    have both : (a &&& b).getLsbD n = true := by rw [BitVec.getLsbD_and, ha, hb]; rfl
    rw [apart] at both
    simp at both

theorem Slot.waits_iff {x : Slot} :
    x.waits = true ↔ (∃ k v m t, x = .pending k v m t) ∨ ∃ k v m t, x = .detached k v m t := by
  cases x <;> simp [Slot.waits]

/-- Bit 0 of the cause set is WATCH, given by the slots (R132). -/
theorem Wta.causeSet_watch (w : Wta) : w.causeSet.getLsbD 0 = true ↔ ∃ i : Fin 8, (w.slots[i]).waits = true := by
  have bit : w.causeSet.getLsbD 0 = w.slots.any Slot.waits := by
    rw [← Vector.any_toList]
    unfold Wta.causeSet
    cases w.slots.toList.any Slot.waits <;> simp [Cause.bit]
  rw [bit, Vector.any_iff_exists, Fin.exists_iff]
  rfl

/-- The other bits of the cause set are the event causes (R132). -/
theorem Wta.causeSet_event (w : Wta) {n : Fin 9} (h : n ≠ 0) : w.causeSet.getLsbD n = w.causes.getLsbD n := by
  have notWatch : Cause.watch.bit[n.val] = false := by
    revert n
    decide
  unfold Wta.causeSet
  cases w.slots.toList.any Slot.waits <;> simp [notWatch]

/-- ATTN is low exactly while an event cause is set and enabled, or WATCH is enabled and a slot waits (R136). -/
theorem attnLow_iff {s : State} : s.attnLow = true ↔
    (∃ n : Fin 9, n ≠ 0 ∧ s.wta.causes.getLsbD n = true ∧ s.wta.enables.getLsbD n = true)
      ∨ (s.wta.enables.getLsbD 0 = true ∧ ∃ i : Fin 8, (s.wta.slots[i]).waits = true) := by
  unfold State.attnLow
  rw [and_bne_zero_iff, ← Wta.causeSet_watch]
  constructor
  · rintro ⟨n, set, enabled⟩
    by_cases h : n = 0
    · subst h
      exact .inr ⟨enabled, set⟩
    · exact .inl ⟨n, h, by rwa [← Wta.causeSet_event _ h], enabled⟩
  · rintro (⟨n, h, set, enabled⟩ | ⟨enabled, set⟩)
    · exact ⟨n, by rwa [Wta.causeSet_event _ h], enabled⟩
    · exact ⟨0, set, enabled⟩

/-! ### ACKNOWLEDGE and ATTN-ENABLE -/

theorem maskOf_refused {ops : List Byte} (h : 512 ≤ natAt ops 0 2) : maskOf ops = none := by
  simp [maskOf, h]

theorem maskOf_accepted {ops : List Byte} (h : natAt ops 0 2 < 512) :
    maskOf ops = some (BitVec.ofNat 9 (natAt ops 0 2)) := by
  simp [maskOf, h]

/-- The mask names ADMIT exactly when its bit 4 is set (R94, R132). -/
theorem names_admission_iff {m : BitVec 9} : m &&& Cause.admission.bit ≠ 0 ↔ m.getLsbD 4 = true := by
  have single : Cause.admission.bit = BitVec.twoPow 9 4 := rfl
  have nonempty : BitVec.twoPow 9 4 ≠ 0#9 := by decide
  rw [single, BitVec.and_twoPow]
  cases m.getLsbD 4 <;> simp [nonempty]

/-- The effect of an acknowledgement: the named causes go, and the first-refused capture with ADMIT (R94, R134). -/
theorem acknowledge_eq (m : BitVec 9) (s : State) :
    acknowledge m s = (s.setWta { s.wta with causes := s.wta.causes &&& ~~~m }).setRte
      { s.rte with capture := if m.getLsbD 4 then none else s.rte.capture } := by
  unfold acknowledge
  simp only [names_admission_iff]
  cases m.getLsbD 4 <;> rfl

theorem serveAcknowledge_refused {ops : List Byte} (s : State) (h : 512 ≤ natAt ops 0 2) :
    serveAcknowledge ops s = (s, ⟨.badOperand, []⟩) := by
  simp [serveAcknowledge, maskOf_refused h, Answer.refuse]

theorem serveAcknowledge_accepted {ops : List Byte} (s : State) (h : natAt ops 0 2 < 512) :
    serveAcknowledge ops s = (acknowledge (BitVec.ofNat 9 (natAt ops 0 2)) s,
      ⟨.ok, setBytes (acknowledge (BitVec.ofNat 9 (natAt ops 0 2)) s).wta.causeSet⟩) := by
  simp [serveAcknowledge, maskOf_accepted h]

theorem serveAttnEnable_refused {ops : List Byte} (s : State) (h : 512 ≤ natAt ops 0 2) :
    serveAttnEnable ops s = (s, ⟨.badOperand, []⟩) := by
  simp [serveAttnEnable, attnEnable, maskOf_refused h, Answer.refuse]

/-- An accepted ATTN-ENABLE writes the enable set; the cause set it answers does not depend on it (R135). -/
theorem serveAttnEnable_accepted {ops : List Byte} (s : State) (h : natAt ops 0 2 < 512) :
    serveAttnEnable ops s = (s.setWta { s.wta with enables := BitVec.ofNat 9 (natAt ops 0 2) },
      ⟨.ok, setBytes (BitVec.ofNat 9 (natAt ops 0 2)) ++ setBytes s.wta.causeSet⟩) := by
  simp [serveAttnEnable, attnEnable, maskOf_accepted h, Wta.causeSet]

/-- ACKNOWLEDGE with an accepted mask, at its row. -/
theorem exec_acknowledge_accepted {ops : List Byte} {m : BitVec 9} {s : State} (h : Hears .acknowledge ops s)
    (hm : m = BitVec.ofNat 9 (natAt ops 0 2)) (hn : natAt ops 0 2 < 512) :
    exec (.acknowledge (Frame.ofOperands ops)) s = .next (settle
      { answeredAtOnce 0x04 (Frame.ofOperands ops)
          ⟨.ok, setBytes (Wta.causeSet { s.wta with causes := s.wta.causes &&& ~~~m })⟩ s with
        wta := { s.wta with causes := s.wta.causes &&& ~~~m }
        rte := { s.rte with capture := if m.getLsbD 4 then none else s.rte.capture } }) := by
  subst hm
  have hs : serve .acknowledge ops (taken .acknowledge ops s) = _ := serveAcknowledge_accepted _ hn
  rw [acknowledge_eq] at hs
  exact live_commandTaken_wta h rfl hs rfl

/-- ATTN-ENABLE with an accepted mask, at its row. -/
theorem exec_attnEnable_accepted {ops : List Byte} {m : BitVec 9} {s : State} (h : Hears .attnEnable ops s)
    (hm : m = BitVec.ofNat 9 (natAt ops 0 2)) (hn : natAt ops 0 2 < 512) :
    exec (.attnEnable (Frame.ofOperands ops)) s = .next (settle
      { answeredAtOnce 0x05 (Frame.ofOperands ops) ⟨.ok, setBytes m ++ setBytes s.wta.causeSet⟩ s with
        wta := { s.wta with enables := m } }) := by
  subst hm
  exact live_commandTaken_wta h rfl (serveAttnEnable_accepted _ hn) rfl

/-! ### The obligation -/

/-- Settles O16: ATTN by `attnLow_iff`, a refused mask by the service's refusal, an accepted one by
`exec_acknowledge_accepted` and `exec_attnEnable_accepted`. -/
theorem attentionCommands : Obligations.AttentionCommands := by
  unfold Obligations.AttentionCommands
  refine ⟨fun s => ?attn, ?commands⟩
  case attn => simp only [attnLow_iff, Slot.waits_iff, exists_or]
  case commands =>
    rintro s ops f m rfl hm
    exact ⟨fun h => ⟨fun hr => live_commandTaken_wta h rfl (serveAcknowledge_refused _ hr) rfl,
        exec_acknowledge_accepted h hm⟩,
      fun h => ⟨fun hr => live_commandTaken_wta h rfl (serveAttnEnable_refused _ hr) rfl,
        exec_attnEnable_accepted h hm⟩⟩

end Sys2Proof.Machine
end

section
/-! SUPPORT. The two commands that pass the link-level checks in HELD and in READY (R179), and the answer of IDENTIFY (R182). -/

namespace Sys2Proof.Machine

/-! ### Commands a HELD link lets pass -/

/-- IDENTIFY and RELEASE with their operand length pass the link-level checks whatever the link state (R174, R179). -/
theorem linkCheck_anyLink {c : Cmd} {f : Frame} (k : LinkState) (hc : c = .identify ∨ c = .release)
    (h : f.len.toNat = c.operandLength) : linkCheck c.code f k = .ok c := by
  have notHeld : ¬ (k = .held ∧ c ≠ .identify ∧ c ≠ .release) := fun ⟨_, hi, hr⟩ => hc.elim hi hr
  simp [linkCheck, ofByte_code, notHeld, h]

/-- A command that passes the link-level checks is handed to its owner (R174). -/
theorem judge_passed {byte : Byte} {c : Cmd} {f : Frame} {s : State} (cut : Bool) (ho : s.pwu.op = .none)
    (hc : linkCheck byte f s.ctl.link = .ok c) : judge byte f cut s = handOver c f.operands cut s := by
  simp only [judge, abortSleepEntry_none ho, hc]

/-- IDENTIFY or RELEASE taken in RUN goes to its owner after its activity event, in HELD and in READY (R174, R179). -/
theorem commandTaken_anyLink {c : Cmd} {s : State} (h : Opened s) (hp : s.pwu.power = .run)
    (hc : c = .identify ∨ c = .release) :
    commandTaken c.code (Frame.ofOperands []) s = toOwner c [] false ((framed c [] s).setPwu (heard s)) := by
  have ⟨_, _, _, _, _, noOp, _⟩ := h
  have other {d : Cmd} (hi : d ≠ .identify) (hr : d ≠ .release) : c ≠ d := by
    rintro rfl
    exact hc.elim hi hr
  have passes : linkCheck c.code (Frame.ofOperands []) (framed c [] s).ctl.link = .ok c :=
    linkCheck_anyLink _ hc (by rcases hc with rfl | rfl <;> rfl)
  calc commandTaken c.code (Frame.ofOperands []) s
      = judge c.code (Frame.ofOperands []) false (framed c [] s) :=
        commandTaken_opened h (ofOperands_wellFormed (Nat.zero_le _))
    _ = handOver c [] false (framed c [] s) := judge_passed false noOp passes
    _ = toOwner c [] false ((framed c [] s).setPwu (heard s)) :=
        handOver_run noOp hp (other nofun nofun) (other nofun nofun) (other nofun nofun)

/-! ### IDENTIFY -/

/-- The identity, byte by byte; only the link state is not fixed in the part (R182). -/
theorem identityBytes_eq (s : State) : identityBytes s
    = [0x4C, 0x44, 0x4E, 0x57, 0x02, 0x6C, 0x01, s.ctl.link.code, 0x04, 0x00, 0x04, 0x10, 0x08, 0x04, 0x10] := rfl

/-- IDENTIFY taken in RUN with the CTL free is answered at once with the identity, and changes nothing else (R182). -/
theorem commandTaken_identify {s : State} (h : Opened s) (hp : s.pwu.power = .run)
    (hfree : ∀ w ∈ s.ctl.waiting, ownerOf w.cmd w.operands ≠ .ctl) :
    commandTaken Cmd.identify.code (Frame.ofOperands []) s
      = answeredAtOnce Cmd.identify.code (Frame.ofOperands []) ⟨.ok, identityBytes s⟩ s := by
  have served := toOwner_ready (c := .identify) (ops := []) (s := (framed .identify [] s).setPwu (heard s)) hfree rfl rfl
  rw [commandTaken_anyLink h hp (.inl rfl), served]
  rfl

/-- Settles O14: the link-level checks pass IDENTIFY in HELD and in READY (`linkCheck_anyLink`), the CTL serves it at once
(`commandTaken_identify`), and the answer is `identityBytes_eq`. -/
theorem identifyGivesTheIdentity : Obligations.IdentifyGivesTheIdentity := by
  unfold Obligations.IdentifyGivesTheIdentity
  intro s h hp hfree
  have ⟨running, _⟩ := h
  have row : exec (.identify (Frame.ofOperands [])) s = .next (settle
      (answeredAtOnce Cmd.identify.code (Frame.ofOperands []) ⟨.ok, identityBytes s⟩ s)) := by
    rw [← commandTaken_identify h hp hfree]
    exact live_next running
  rw [identityBytes_eq] at row
  refine row.trans ?_
  cases s.ctl.link <;> rfl

end Sys2Proof.Machine
end

section
/-! SUPPORT. Which laws an operation of the part keeps: the laws of Safety.lean as one bundle, with one rule per block update
(R84, R85, R88, R94, R118, R159; the bundle is closed under composition). -/

namespace Sys2Proof.Machine

/-! ### Operations that keep the laws -/

/-- Every law of the state that held before holds afterwards. -/
structure Keeps (s t : State) : Prop where
  table : TableLaw s → TableLaw t := by exact id
  binding : TableLaw s → BindingLaw s → BindingLaw t := by exact fun _ => id
  records : RecordLaw s → RecordLaw t := by exact id
  capture : CaptureLaw s → CaptureLaw t := by exact id
  lanes : LanesLaw s → LanesLaw t := by exact id
  widths : TableLaw s → LanesLaw s → WidthLaw s → WidthLaw t := by exact fun _ _ => id
  power : PowerLaw s → PanelLaw s → PowerLaw t ∧ PanelLaw t := by exact And.intro
  settings : SettingsLaw s → SettingsLaw t := by exact id
  flash : FlashLaw s → FlashLaw t := by exact id

/-- An operation that keeps the laws and touches neither the Control Link nor the reset and the queue. -/
structure Effect (s t : State) : Prop extends Keeps s t where
  ctl : t.ctl = s.ctl := by rfl
  inReset : t.inReset = s.inReset := by rfl
  pending : t.pending = s.pending := by rfl

theorem Keeps.refl (s : State) : Keeps s s := {}

theorem Keeps.trans {s t u : State} (h : Keeps s t) (g : Keeps t u) : Keeps s u where
  table ht := g.table (h.table ht)
  binding ht hb := g.binding (h.table ht) (h.binding ht hb)
  records hr := g.records (h.records hr)
  capture hc := g.capture (h.capture hc)
  lanes hl := g.lanes (h.lanes hl)
  widths ht hl hw := g.widths (h.table ht) (h.lanes hl) (h.widths ht hl hw)
  power hp hd := g.power (h.power hp hd).1 (h.power hp hd).2
  settings hs := g.settings (h.settings hs)
  flash hf := g.flash (h.flash hf)

theorem Effect.refl (s : State) : Effect s s := {}

theorem Effect.trans {s t u : State} (h : Effect s t) (g : Effect t u) : Effect s u where
  toKeeps := h.toKeeps.trans g.toKeeps
  ctl := g.ctl.trans h.ctl
  inReset := g.inReset.trans h.inReset
  pending := g.pending.trans h.pending

theorem Effect.ite {s t u : State} (c : Prop) [Decidable c] (h : c → Effect s t) (g : ¬ c → Effect s u) :
    Effect s (if c then t else u) := by
  split
  · next hc => exact h hc
  · next hc => exact g hc

/-- A walk each of whose turns is an effect. -/
theorem Effect.foldl {α : Type} {f : State → α → State} (h : ∀ s a, Effect s (f s a)) (as : List α) (s : State) :
    Effect s (as.foldl f s) := by
  induction as generalizing s with
  | nil => exact .refl s
  | cons a as ih => exact (h s a).trans (ih _)

/-! ### Block updates -/

/-- The Control Link enters none of these laws. -/
theorem keeps_setCtl (x : Ctl) (s : State) : Keeps s (s.setCtl x) := {}

/-- A bank's settings lie in their ranges (R1, R9). -/
abbrev Bank.Law (b : Bank) : Prop := 10 ≤ b.code ∧ b.code ≤ 250 ∧ b.width ≤ 15

theorem effect_setPfe {x : Pfe} {s : State} (h : ∀ b : Fin 2, (s.pfe.banks[b]).Law → (x.banks[b]).Law) :
    Effect s (s.setPfe x) where
  settings := fun ⟨hl, hb, hrest⟩ => ⟨hl, fun b => h b (hb b), hrest⟩

theorem effect_setPfe_banks {x : Pfe} {s : State} (h : x.banks = s.pfe.banks) : Effect s (s.setPfe x) :=
  effect_setPfe fun b hb => by rwa [h]

theorem effect_setRte {x : Rte} {s : State} (ht : x.table = s.rte.table) (he : x.epoch = s.rte.epoch)
    (hh : x.hold = s.rte.hold) (hc : x.capture = s.rte.capture) : Effect s (s.setRte x) where
  table := fun h => by rwa [TableLaw, State.setRte_rte, ht]
  binding := fun _ h => by rwa [BindingLaw, State.setRte_rte, ht, State.setRte_wta]
  records := fun h => by rwa [RecordLaw, State.setRte_rte, ht, he, hh]
  capture := fun h => by rwa [CaptureLaw, State.setRte_rte, hc, State.setRte_wta]
  widths := fun _ _ h => by rwa [WidthLaw, State.setRte_rte, ht, State.setRte_lanes]

theorem effect_setWta {x : Wta} {s : State} (hs : x.slots = s.wta.slots) (hc : x.causes = s.wta.causes) :
    Effect s (s.setWta x) where
  binding := fun _ h => by rwa [BindingLaw, State.setWta_wta, hs, State.setWta_rte]
  capture := fun h => by rwa [CaptureLaw, State.setWta_wta, hc, State.setWta_rte]

theorem effect_setPim {x : Pim} {s : State} (h : s.pim.flash.wf = true → x.flash.wf = true) : Effect s (s.setPim x) where
  flash := h

/-- The view settings stay in their ranges, the panel and its refresh timer as they were, and no refresh begins while the
panel is OFF. -/
theorem effect_setDse {d : Dse} {s : State} (hon : d.panelOn = s.dse.panelOn) (ht : d.refreshTimer = s.dse.refreshTimer)
    (hr : d.refresh.isSome → s.dse.refresh.isSome ∨ s.dse.refreshTimer.isSome)
    (hw : s.dse.window ≤ 15 → d.window ≤ 15) (h1 : s.dse.runLevel ≤ 15 → d.runLevel ≤ 15)
    (h2 : s.dse.dimLevel ≤ 15 → d.dimLevel ≤ 15) : Effect s (s.setDse d) where
  power := by
    rintro hp ⟨htimer, hstate, hrefresh⟩
    refine ⟨hp, ?_, ?_, ?_⟩
    · rw [State.setDse_dse, hon, ht]
      exact htimer
    · rw [State.setDse_dse, hon]
      exact hstate
    · rw [State.setDse_dse, hon]
      intro h
      rcases hr h with h | h
      · exact hrefresh h
      · rw [htimer] at h
        by_contra hoff
        rw [if_neg hoff] at h
        cases h
  settings := fun ⟨hl, hb, hdim, hdark, hsleep, hwin, hrun, hdl⟩ =>
    ⟨hl, hb, hdim, hdark, hsleep, hw hwin, h1 hrun, h2 hdl⟩

/-- What the change of a lane has to keep: the lane's law, the ranges of its configuration, and for its records the width
they are allowed (R33). -/
structure LaneStep (i : Fin 4) (l l' : Lane) : Prop where
  law : l.Law i → l'.Law i
  config : l.cfg.Law → l'.cfg.Law := by exact id
  width : ∀ w, w = l.cfg.w ∨ l.request = some .retirement → w = l'.cfg.w ∨ l'.request = some .retirement := by
    exact fun _ => id

theorem LaneStep.refl (i : Fin 4) (l : Lane) : LaneStep i l l where
  law := id

theorem LaneStep.trans {i : Fin 4} {l l' l'' : Lane} (h : LaneStep i l l') (g : LaneStep i l' l'') : LaneStep i l l'' where
  law := g.law ∘ h.law
  config := g.config ∘ h.config
  width w := g.width w ∘ h.width w

theorem effect_setLanes {v : Vector Lane 4} {s : State} (h : ∀ i : Fin 4, LaneStep i s.lanes[i] v[i]) :
    Effect s (s.setLanes v) where
  lanes := fun hl i => (h i).law (hl i)
  widths := fun _ _ hw r hr => (h r.key.lane).width r.width (hw r hr)
  settings := fun ⟨hl, hrest⟩ => ⟨fun i => (h i).config (hl i), hrest⟩

theorem effect_setLane {i : Fin 4} {l : Lane} {s : State} (h : LaneStep i s.lanes[i] l) : Effect s (s.setLane i l) := by
  refine effect_setLanes fun j => ?_
  simp only [Fin.getElem_fin, Vector.getElem_set]
  by_cases hij : i.val = j.val
  · rw [if_pos hij]
    exact Fin.ext hij ▸ h
  · rw [if_neg hij]
    exact .refl j _

theorem effect_mapLanes {f : Lane → Lane} {s : State} (h : ∀ i l, LaneStep i l (f l)) :
    Effect s (s.setLanes (mapAll f s.lanes)) :=
  effect_setLanes fun i => by
    rw [mapAll_get]
    exact h i _

/-- A change of the PWU and of the panel together. -/
theorem effect_setPwu_setDse {p : Pwu} {d : Dse} {s : State}
    (hp : PowerLaw s → PanelLaw s → PowerLaw ((s.setPwu p).setDse d) ∧ PanelLaw ((s.setPwu p).setDse d))
    (hd : p.dim = s.pwu.dim ∧ p.dark = s.pwu.dark ∧ p.sleep = s.pwu.sleep)
    (hw : d.window = s.dse.window ∧ d.runLevel = s.dse.runLevel ∧ d.dimLevel = s.dse.dimLevel) :
    Effect s ((s.setPwu p).setDse d) where
  power := hp
  settings := fun ⟨hl, hb, hrest⟩ => by
    obtain ⟨h1, h2, h3⟩ := hd
    obtain ⟨h4, h5, h6⟩ := hw
    refine ⟨hl, hb, ?_⟩
    simpa only [State.setDse_pwu, State.setPwu_pwu, State.setDse_dse, h1, h2, h3, h4, h5, h6] using hrest

/-- A change of the PWU that leaves the power state, the operation, the timer and the deferred mark. -/
theorem effect_setPwu {p : Pwu} {s : State} (h1 : p.power = s.pwu.power) (h2 : p.op = s.pwu.op)
    (h3 : p.timer = s.pwu.timer) (h4 : p.deferred = s.pwu.deferred)
    (h5 : s.pwu.dim ≤ 255 ∧ s.pwu.dark ≤ 255 ∧ s.pwu.sleep ≤ 255 → p.dim ≤ 255 ∧ p.dark ≤ 255 ∧ p.sleep ≤ 255) :
    Effect s (s.setPwu p) where
  power := by
    intro hp hd
    simpa only [PowerLaw, PanelLaw, TimerLaw, HeldPowerLaw, State.setPwu_pwu, State.setPwu_dse, State.setPwu_inReset, h1,
      h2, h3, h4] using And.intro hp hd
  settings := fun ⟨hl, hb, hdim, hdark, hsleep, hrest⟩ =>
    have ⟨g1, g2, g3⟩ := h5 ⟨hdim, hdark, hsleep⟩
    ⟨hl, hb, g1, g2, g3, hrest⟩

/-! ### Raises -/

/-- Bits set outside a mask leave what the mask shows. -/
theorem or_and_of_apart {w : Nat} (a : BitVec w) {b m : BitVec w} (h : b &&& m = 0) : (a ||| b) &&& m = a &&& m := by
  ext i hi
  have bit := congrArg (fun x => x[i]) h
  simp only [BitVec.getElem_and, BitVec.ofNat_eq_ofNat, BitVec.getElem_zero, Bool.and_eq_false_iff] at bit
  rcases bit with bit | bit <;> simp [bit]

/-- A cause other than ADMIT is raised. -/
theorem effect_raise {c : Cause} (hc : c ≠ .admission) (s : State) : Effect s (raise c s) where
  capture := by
    intro h
    have apart : c.bit &&& Cause.admission.bit = 0 := by cases c with
      | admission => exact absurd rfl hc
      | _ => rfl
    have same := or_and_of_apart s.wta.causes apart
    rw [CaptureLaw, raise_eq, State.setWta_wta, same]
    exact h

theorem effect_raiseIf {c : Cause} (hc : c ≠ .admission) (b : Bool) (s : State) : Effect s (raiseIf b c s) :=
  .ite _ (fun _ => effect_raise hc s) fun _ => .refl s

/-! ### The register table -/

theorem mem_updateRecord {k : Key} {f : Record → Record} {t : List Record} {x : Record} :
    x ∈ updateRecord k f t ↔ ∃ r ∈ t, x = if r.key = k then f r else r := by
  simp [updateRecord, eq_comm]

theorem lookup_isSome_iff {k : Key} {t : List Record} : (lookup k t).isSome = true ↔ ∃ r ∈ t, r.key = k := by
  simp [lookup, List.find?_isSome]

/-- The one record of a key is the one found (R85). -/
theorem TableLaw.eq_of_lookup {s : State} (h : TableLaw s) {k : Key} {r x : Record} (hr : lookup k s.rte.table = some r)
    (hx : x ∈ s.rte.table) (hk : x.key = k) : x = r :=
  h.record_inj hx (lookup_mem hr) (hk.trans (lookup_key hr).symm)

/-- A record of this key may have this width: its lane's W, or any while the lane's retirement waits (R33). -/
def WidthFits (s : State) (k : Key) (w : Nat) : Prop :=
  w = (s.lanes[k.lane]).cfg.w ∨ (s.lanes[k.lane]).request = some .retirement

/-- The record of a key replaced by one with the same key, width and slot that keeps the ranges. -/
theorem effect_modifyRecord {k : Key} {r r' : Record} {s : State} (hr : lookup k s.rte.table = some r)
    (hk : r'.key = r.key) (hw : r'.width = r.width) (hs : r'.watch = r.watch)
    (hl : s.rte.epoch ≤ Config.epochMax → r.Law s.rte.epoch s.rte.hold → r'.Law s.rte.epoch s.rte.hold) :
    Effect s (modifyRecord k (fun _ => r') s) where
  table := by
    rintro ⟨hlen, hord⟩
    refine ⟨by simpa [modifyRecord, updateRecord] using hlen, ?_⟩
    rw [modifyRecord, State.setRte_rte, updateRecord_order fun _ _ => hk.trans (lookup_key hr)]
    exact hord
  binding := by
    rintro ht ⟨hslots, hrecs⟩
    have key : ∀ x ∈ s.rte.table, (if x.key = k then r' else x).key = x.key ∧ (if x.key = k then r' else x).watch = x.watch := by
      intro x hx
      split
      · next hxk =>
        rw [ht.eq_of_lookup hr hx hxk]
        exact ⟨hk, hs⟩
      · exact ⟨rfl, rfl⟩
    refine ⟨fun i k' h => ?_, fun x hx i hi => ?_⟩
    · obtain ⟨x, hx, hxk, hxw⟩ := hslots i k' h
      exact ⟨_, mem_updateRecord.2 ⟨x, hx, rfl⟩, (key x hx).1.trans hxk, (key x hx).2.trans hxw⟩
    · obtain ⟨y, hy, rfl⟩ := mem_updateRecord.1 hx
      rw [(key y hy).2] at hi
      rw [(key y hy).1]
      exact hrecs y hy i hi
  records := by
    rintro ⟨he, hrecs⟩
    refine ⟨he, fun x hx => ?_⟩
    obtain ⟨y, hy, rfl⟩ := mem_updateRecord.1 hx
    split
    · exact hl he (hrecs r (lookup_mem hr))
    · exact hrecs y hy
  widths := by
    intro ht _ hwid x hx
    obtain ⟨y, hy, rfl⟩ := mem_updateRecord.1 hx
    split
    · next hyk =>
      show WidthFits s r'.key r'.width
      rw [hk, hw]
      exact hwid r (lookup_mem hr)
    · exact hwid y hy

/-- Every record changed in its marks and counts alone. -/
theorem effect_mapRecords {f : Record → Record} {s : State} (hk : ∀ r, (f r).key = r.key)
    (hw : ∀ r, (f r).width = r.width) (hs : ∀ r, (f r).watch = r.watch)
    (hl : ∀ r, r.Law s.rte.epoch s.rte.hold → (f r).Law s.rte.epoch s.rte.hold) :
    Effect s (s.setRte { s.rte with table := s.rte.table.map f }) where
  table := by
    rintro ⟨hlen, hord⟩
    refine ⟨by simpa using hlen, ?_⟩
    rw [State.setRte_rte, map_key_of_key hk]
    exact hord
  binding := by
    rintro - ⟨hslots, hrecs⟩
    refine ⟨fun i k h => ?_, fun x hx i hi => ?_⟩
    · obtain ⟨r, hr, hrk, hrw⟩ := hslots i k h
      exact ⟨f r, List.mem_map_of_mem hr, (hk r).trans hrk, (hs r).trans hrw⟩
    · obtain ⟨r, hr, rfl⟩ := List.mem_map.1 hx
      rw [hk]
      exact hrecs r hr i ((hs r).symm.trans hi)
  records := by
    rintro ⟨he, hrecs⟩
    refine ⟨he, fun x hx => ?_⟩
    obtain ⟨r, hr, rfl⟩ := List.mem_map.1 hx
    exact hl r (hrecs r hr)
  widths := by
    intro _ _ hwid x hx
    obtain ⟨r, hr, rfl⟩ := List.mem_map.1 hx
    show WidthFits s (f r).key (f r).width
    rw [hk, hw]
    exact hwid r hr

theorem newRecord_law (k : Key) (w epoch : Nat) (hold : Bool) : (newRecord k w epoch).Law epoch hold :=
  ⟨Nat.zero_le _, Nat.zero_le _, le_rfl, le_rfl, nofun, nofun, nofun⟩

/-- A record created, after an effect, where its key has none, with room in the table, at its lane's W (R85, R92). -/
theorem Effect.createRecord {k : Key} {w : Nat} {s t : State} (h : Effect s t) (habs : lookup k t.rte.table = none)
    (hroom : TableLaw s → t.rte.table.length < Config.tableCapacity)
    (hw : LanesLaw s → w = (t.lanes[k.lane]).cfg.w) : Effect s (createRecord k w t) where
  table := by
    intro ht
    refine ⟨?_, insertRecord_order (h.table ht).2 (lookup_none.1 habs)⟩
    rw [Machine.createRecord, State.setRte_rte, length_insertRecord]
    exact hroom ht
  binding := by
    intro ht hb
    obtain ⟨hslots, hrecs⟩ := h.binding ht hb
    refine ⟨fun i k' h => ?_, fun x hx i hi => ?_⟩
    · obtain ⟨r, hr, hrest⟩ := hslots i k' h
      exact ⟨r, mem_insertRecord.2 (.inr hr), hrest⟩
    · rcases mem_insertRecord.1 hx with rfl | hx
      · cases hi
      · exact hrecs x hx i hi
  records := by
    intro hr
    obtain ⟨he, hrecs⟩ := h.records hr
    refine ⟨he, fun x hx => ?_⟩
    rcases mem_insertRecord.1 hx with rfl | hx
    · exact newRecord_law k w _ _
    · exact hrecs x hx
  capture := h.capture
  lanes := h.lanes
  widths := by
    intro ht hl hwid x hx
    rcases mem_insertRecord.1 hx with rfl | hx
    · exact .inl (hw hl)
    · exact h.widths ht hl hwid x hx
  power := h.power
  settings := h.settings
  flash := h.flash
  ctl := h.ctl
  inReset := h.inReset
  pending := h.pending

theorem Slot.boundKey_retired (x : Slot) : x.retired.boundKey = none := by
  cases x <;> rfl

/-- Records of the table retired leave the bindings of the others (R118, R126). -/
theorem bindingLaw_retireAll {rs : List Record} {s : State} (ht : TableLaw s) (hb : BindingLaw s)
    (hsub : ∀ r ∈ rs, r ∈ s.rte.table) : BindingLaw (retireAll rs s) := by
  rw [retireAll_eq]
  obtain ⟨hbound, hrecs⟩ := hb
  have mem_kept {x : Record} :
      x ∈ (s.rte.table.filter fun x => rs.all fun r => x.key ≠ r.key) ↔ x ∈ s.rte.table ∧ ∀ r ∈ rs, x.key ≠ r.key := by
    simp
  refine ⟨fun i k hk => ?_, fun x hx i hi => ?_⟩
  · change ((rs.foldl tellRetired s.wta.slots)[i]).boundKey = some k at hk
    rw [foldl_tellRetired_get] at hk
    split at hk
    · rw [Slot.boundKey_retired] at hk
      cases hk
    · next hnone =>
      obtain ⟨b, hbt, hbk, hbw⟩ := hbound i k hk
      refine ⟨b, mem_kept.2 ⟨hbt, fun r hr hkey => hnone ⟨r, hr, ?_⟩⟩, hbk, hbw⟩
      rwa [← ht.record_inj hbt (hsub r hr) hkey]
  · obtain ⟨hxt, hapart⟩ := mem_kept.1 hx
    have hbk := hrecs x hxt i hi
    change ((rs.foldl tellRetired s.wta.slots)[i]).boundKey = some x.key
    rw [foldl_tellRetired_get, if_neg]
    · exact hbk
    · rintro ⟨r, hr, hrw⟩
      exact hapart r hr (Option.some.inj (hbk.symm.trans (hrecs r (hsub r hr) i hrw)))

/-- Records of the table retired, with their reports to the slots (R99, R126). -/
theorem effect_retireAll {rs : List Record} {s : State} (hsub : ∀ r ∈ rs, r ∈ s.rte.table) :
    Effect s (retireAll rs s) := by
  have hb := fun ht hb => bindingLaw_retireAll (rs := rs) (s := s) ht hb hsub
  rw [retireAll_eq] at hb ⊢
  exact
    { table := fun ht => ⟨(List.length_filter_le _ _).trans ht.1, ht.2.sublist (List.filter_sublist.map _)⟩
      binding := hb
      records := fun ⟨he, hrecs⟩ => ⟨he, fun x hx => hrecs x (List.mem_filter.1 hx).1⟩
      widths := fun _ _ hwid x hx => hwid x (List.mem_filter.1 hx).1 }

theorem effect_retireRecord {r : Record} {s : State} (hr : r ∈ s.rte.table) : Effect s (retireRecord r s) :=
  effect_retireAll (rs := [r]) fun _ h => List.mem_singleton.1 h ▸ hr

end Sys2Proof.Machine
end

section
/-! SUPPORT. The laws kept by the operations of the Display Engine, of the PWU and of the lanes (chapters 2 to 5, 8 and 9). -/

namespace Sys2Proof.Machine

/-! ### The Display Engine -/

theorem effect_rankingSlice (s : State) : Effect s (rankingSlice s) := by
  unfold rankingSlice
  split
  · exact .refl s
  · next hr =>
    split
    · exact effect_setDse rfl rfl (fun _ => .inl (by rw [hr]; rfl)) id id id
    all_goals exact .refl s

theorem effect_drawingSlice (s : State) : Effect s (drawingSlice s) := by
  unfold drawingSlice
  split
  · exact .refl s
  · next hr =>
    split
    · dsimp only
      split
      · exact effect_setDse rfl rfl (fun _ => .inl (by rw [hr]; rfl)) id id id
      · exact effect_setDse rfl rfl (fun _ => .inl (by rw [hr]; rfl)) id id id
    all_goals exact .refl s

theorem effect_refreshExpiry (s : State) : Effect s (refreshExpiry s) := by
  unfold refreshExpiry
  split
  · next ht _ => exact effect_setDse rfl rfl (fun _ => .inr (by rw [ht]; rfl)) id id id
  · exact .refl s

theorem effect_lineSent (s : State) : Effect s (lineSent s) := by
  unfold lineSent
  split
  · refine effect_setDse rfl rfl (fun h => .inl ?_) id id id
    revert h
    unfold refreshAfterLine
    cases s.dse.refresh <;> simp
  · exact .refl s

theorem effect_panelMessageSent (s : State) : Effect s (panelMessageSent s) := by
  unfold panelMessageSent
  split
  · exact effect_setDse rfl rfl .inl id id id
  · exact effect_setDse rfl rfl .inl id id id
  · exact .refl s

theorem effect_writeRow (i : Fin 16) (b : Binding) (f : Format) (s : State) : Effect s (writeRow i b f s) :=
  effect_setDse rfl rfl .inl id id id

theorem effect_viewSet {row binding format : Nat} {argument : List Byte} {s t : State}
    (h : viewSet row binding format argument s = some t) : Effect s t := by
  unfold viewSet at h
  split at h
  · cases h
    exact effect_writeRow _ _ _ s
  · cases h

theorem effect_viewOptions (n : Nat) (s : State) : Effect s (viewOptions n s) :=
  effect_setDse rfl rfl .inl (fun _ => min_le_left _ _) id id

theorem effect_panelSet (n m : Nat) (s : State) : Effect s (panelSet n m s) :=
  effect_setDse rfl rfl .inl id (fun _ => min_le_left _ _) fun _ => min_le_left _ _

/-- The hold state changes: at its end every held part goes (R101, R102). -/
theorem effect_holdState {on : Bool} {s : State} (h : s.rte.hold ≠ on) :
    Effect s (s.setRte { s.rte with
      hold := on, table := if on then s.rte.table else s.rte.table.map fun r => { r with held := none } }) := by
  cases on
  · have drop := effect_mapRecords (f := fun r => { r with held := none }) (s := s) (fun _ => rfl) (fun _ => rfl)
      (fun _ => rfl) fun r ⟨h1, h2, h3, h4, h5, _, h7⟩ => ⟨h1, h2, h3, h4, h5, nofun, h7⟩
    refine { drop with records := fun hr => ⟨hr.1, fun x hx => ?_⟩ }
    obtain ⟨h1, h2, h3, h4, h5, -, h7⟩ := (drop.records hr).2 x hx
    obtain ⟨r, -, rfl⟩ := List.mem_map.1 hx
    exact ⟨h1, h2, h3, h4, h5, nofun, h7⟩
  · exact { records := fun ⟨he, hrecs⟩ => ⟨he, fun x hx => by
      obtain ⟨h1, h2, h3, h4, h5, -, h7⟩ := hrecs x hx
      exact ⟨h1, h2, h3, h4, h5, fun _ => rfl, h7⟩⟩ }

theorem effect_setHold (on : Bool) (s : State) : Effect s (setHold on s) := by
  unfold setHold
  refine .ite _ (fun _ => .refl s) fun h => ?_
  exact (effect_setDse (d := { s.dse with rows := mapAll (fun r => { r with rebound := false }) s.dse.rows }) rfl rfl .inl
    id id id).trans (effect_holdState h)

/-! ### The panel and the power chain -/

/-- The Display Engine once the panel has gone OFF (R154). -/
def Dse.turnedOff (d : Dse) : Dse :=
  if d.panelOn then
    { d with panelOn := false, refreshTimer := none, refresh := none, port := withdrawLines d.port ++ [.panelOff] }
  else d

theorem panelTurnOff_eq (s : State) : panelTurnOff s = s.setDse s.dse.turnedOff := by
  unfold panelTurnOff Dse.turnedOff
  split <;> rfl

theorem Dse.turnedOff_levels (d : Dse) :
    d.turnedOff.window = d.window ∧ d.turnedOff.runLevel = d.runLevel ∧ d.turnedOff.dimLevel = d.dimLevel := by
  unfold Dse.turnedOff
  split <;> exact ⟨rfl, rfl, rfl⟩

/-- A panel that has gone OFF meets the panel law in every power state. -/
theorem panelLaw_turnedOff {p : Pwu} {s : State} (h : PanelLaw s) : PanelLaw ((s.setPwu p).setDse s.dse.turnedOff) := by
  obtain ⟨htimer, -, hrefresh⟩ := h
  show s.dse.turnedOff.refreshTimer = _ ∧ _ ∧ (s.dse.turnedOff.refresh.isSome → s.dse.turnedOff.panelOn = true)
  cases hon : s.dse.panelOn
  · have off : s.dse.turnedOff = s.dse := by simp [Dse.turnedOff, hon]
    rw [State.setDse_dse, off]
    rw [hon] at htimer hrefresh
    simp only [hon]
    exact ⟨htimer, nofun, hrefresh⟩
  · simp [Dse.turnedOff, hon]

/-- The panel comes ON in RUN or DIM (R147, R155). -/
theorem effect_panelTurnOn {s : State} (h : s.pwu.power = .run ∨ s.pwu.power = .dim) : Effect s (panelTurnOn s) := by
  by_cases hstay : s.dse.panelOn = true ∨ startUpDone s = false
  · have same : panelTurnOn s = s := by
      rcases hstay with hon | hearly
      · exact panelTurnOn_on hon
      · exact panelTurnOn_early hearly
    rw [same]
    exact .refl s
  · obtain ⟨hoff, hdone⟩ := not_or.1 hstay
    obtain ⟨rf, -, heq⟩ := panelTurnOn_off (Bool.eq_false_iff.2 hoff) (by simpa using hdone)
    rw [heq]
    exact { power := fun hp _ => ⟨hp, rfl, fun _ => h, fun _ => rfl⟩ }

theorem startTimer_some {t t' : ChainTimer} {n m : Nat} (h : startTimer t n = some (t', m)) : t' = t := by
  unfold startTimer at h
  split at h
  · cases h
  · cases h
    rfl

/-- A part that has just entered RUN out of reset meets the power law, whatever it came from. -/
theorem powerLaw_toRun {p : Pwu} {s : State} (hp : s.pwu = p.toRun) (hr : s.inReset = false) : PowerLaw s := by
  rw [PowerLaw, TimerLaw, HeldPowerLaw, hp, hr]
  exact ⟨nofun, nofun, nofun, fun t n h => ⟨rfl, .inl ⟨startTimer_some h, rfl⟩⟩, nofun⟩

/-- The part enters RUN from a state in which the panel is OFF, or from RUN (R159, R160). -/
theorem effect_toRun {s : State} (h : s.inReset = false ∨ s.pwu.op ≠ .none) (hp : PowerLaw s → s.pwu.power ≠ .dim) :
    Effect s (s.setPwu s.pwu.toRun) := by
  refine effect_setPwu_setDse (p := s.pwu.toRun) (d := s.dse) (fun hpow hpan => ?_) ⟨rfl, rfl, rfl⟩ ⟨rfl, rfl, rfl⟩
  have notDim := hp hpow
  obtain ⟨-, -, -, -, hheld⟩ := hpow
  obtain ⟨htimer, hstate, hrefresh⟩ := hpan
  refine ⟨powerLaw_toRun (s := s.setPwu s.pwu.toRun) rfl ?_, ?_, fun _ => .inl rfl, hrefresh⟩
  · show s.inReset = false
    rcases h with h | h
    · exact h
    · by_contra hr
      exact h (hheld (by simpa using hr)).2.1
  · show s.dse.refreshTimer = _
    rw [htimer]
    cases hon : s.dse.panelOn
    · simp [hon]
    · simp only [State.setDse_dse, hon, if_true, State.setDse_pwu, State.setPwu_pwu]
      rw [(hstate hon).resolve_right notDim]
      rfl

/-! ### Restart and stop of the lanes -/

theorem seekingState_ne_off (c : LaneConfig) (lv : Levels) : c.seekingState lv ≠ .off := by
  unfold LaneConfig.seekingState
  split <;> nofun

theorem law_restart {i : Fin 4} {l : Lane} {request : LaneRequest} {lv : Levels} (hn : l.notes &&& ~~~l.flags = 0)
    (hm : l.cfg.kind = .management → l.cfg.w = 2 ∧ l.cfg.a = 1) : (l.restart request lv).Law i := by
  refine ⟨?_, fun _ => rfl, Nat.zero_le _, fun _ => rfl, nofun, hn, hm⟩
  show (if l.enabled = true ∧ l.cfg.kind ≠ .none then l.cfg.seekingState lv else .off) = .off ↔ _
  split
  · next h => exact ⟨fun hs => absurd hs (seekingState_ne_off _ _), fun hs => absurd h hs⟩
  · next h => exact ⟨fun _ => h, fun _ => rfl⟩

/-- A restart that keeps W and the configuration's ranges, or asks for a retirement (R20, R31, R33). -/
theorem laneStep_restart {i : Fin 4} {l l' : Lane} {request : LaneRequest} (lv : Levels)
    (hm : l.Law i → l'.cfg.kind = .management → l'.cfg.w = 2 ∧ l'.cfg.a = 1) (hn : l'.notes = l.notes ∧ l'.flags = l.flags)
    (hr : l'.request = l.request) (hc : l.cfg.Law → l'.cfg.Law) (hw : l'.cfg.w = l.cfg.w ∨ request = .retirement) :
    LaneStep i l (l'.restart request lv) where
  law := fun hl => law_restart (by
    obtain ⟨-, -, -, -, -, hnotes, -⟩ := hl
    rwa [hn.1, hn.2]) (hm hl)
  config := hc
  width := by
    show ∀ w, _ → w = l'.cfg.w ∨ some (mergeRequest l'.request request) = some .retirement
    rw [hr]
    rintro w (rfl | h)
    · rcases hw with hw | rfl
      · exact .inl hw.symm
      · exact .inr (by unfold mergeRequest; split <;> rfl)
    · exact .inr (by simp [mergeRequest, h])

theorem laneStep_restart_same (i : Fin 4) (l : Lane) (request : LaneRequest) (lv : Levels) :
    LaneStep i l (l.restart request lv) :=
  laneStep_restart lv (fun ⟨_, _, _, _, _, _, hm⟩ => hm) ⟨rfl, rfl⟩ rfl id (.inl rfl)

theorem effect_restartEnabled (s : State) : Effect s (restartEnabled s) :=
  effect_mapLanes fun i l => by
    split
    · exact laneStep_restart_same i l _ _
    · exact .refl i l

theorem laneStep_stop (i : Fin 4) (l : Lane) (lv : Levels) : LaneStep i l (l.stop lv) where
  law := by
    rintro ⟨hoff, hslot, hlen, hptr, hown, hnotes, hmgmt⟩
    have state : (l.stop lv).state = .off ↔ l.state = .off := by
      show (if l.state = .off then LaneState.off else l.cfg.seekingState lv) = .off ↔ _
      split
      · next h => exact ⟨fun _ => h, fun _ => rfl⟩
      · next h => exact ⟨fun hs => absurd hs (seekingState_ne_off _ _), fun hs => absurd hs h⟩
    exact ⟨state.trans hoff, fun h => hslot (state.1 h), Nat.zero_le _, fun _ => rfl, hown, hnotes, hmgmt⟩

/-! ### Moves of the power chain -/

theorem effect_abortSleepEntry (s : State) : Effect s (abortSleepEntry s) := by
  unfold abortSleepEntry
  refine .ite _ (fun h => ?_) fun _ => .refl s
  have notDim : PowerLaw s → s.pwu.power ≠ .dim := fun ⟨hentry, _⟩ => by
    rw [hentry h]
    nofun
  exact ((effect_toRun (.inr (by rw [h]; nofun)) notDim).trans (effect_restartEnabled _)).trans
    (effect_panelTurnOn (.inl rfl))

/-- An activity event out of reset (R160). -/
theorem effect_activity {s : State} (hr : s.inReset = false) : Effect s (activity s) := by
  unfold activity
  refine .ite _ (fun _ => effect_abortSleepEntry s) fun _ => ?_
  split
  · next hp => exact effect_toRun (.inl hr) fun _ => by rw [hp]; nofun
  · rw [refreshTimerMoves_eq]
    refine effect_setPwu_setDse (fun _ hpan => ?_) ⟨rfl, rfl, rfl⟩ ⟨rfl, rfl, rfl⟩
    obtain ⟨htimer, hstate, hrefresh⟩ := hpan
    refine ⟨powerLaw_toRun (s := s.setPwu s.pwu.toRun) rfl hr, ?_, fun _ => .inl rfl, hrefresh⟩
    show (if s.dse.panelOn then some (refreshPeriod .run) else s.dse.refreshTimer) = _
    rw [htimer]
    cases hon : s.dse.panelOn <;> simp [hon, toRun_eq]
  · next hp =>
    exact (effect_toRun (.inl hr) fun _ => by rw [hp]; nofun).trans (effect_panelTurnOn (.inl rfl))
  · exact .refl s

theorem effect_activityIf {s : State} (hr : s.inReset = false) (b : Bool) : Effect s (activityIf b s) :=
  .ite _ (fun _ => effect_activity hr) fun _ => .refl s

theorem timerRuns_iff {t : ChainTimer} {s : State} : timerRuns t s = true ↔ ∃ n, s.pwu.timer = some (t, n) := by
  unfold timerRuns
  split
  · next t' n h => simp [h]
  · next h => simp [h]

/-- While a timer runs no reset is held (R171). -/
theorem PowerLaw.running_of_timer {s : State} {x : ChainTimer × Nat} (h : PowerLaw s) (ht : s.pwu.timer = some x) :
    s.inReset = false := by
  obtain ⟨-, -, -, -, hheld⟩ := h
  by_contra hr
  obtain ⟨-, -, hnone, -⟩ := hheld (by simpa using hr)
  rw [hnone] at ht
  cases ht

theorem effect_dimExpiry (s : State) : Effect s (dimExpiry s) := by
  unfold dimExpiry
  refine .ite _ (fun ⟨hrun, htimer⟩ => ?_) fun _ => .refl s
  obtain ⟨n, htimer⟩ := timerRuns_iff.1 htimer
  rw [refreshTimerMoves_eq]
  refine effect_setPwu_setDse (fun hpow hpan => ?_) ⟨rfl, rfl, rfl⟩ ⟨rfl, rfl, rfl⟩
  have running := hpow.running_of_timer htimer
  obtain ⟨hentry, hwake, hdef, hlaw, -⟩ := hpow
  obtain ⟨hperiod, hstate, hrefresh⟩ := hpan
  obtain ⟨hop, -⟩ := hlaw _ _ htimer
  refine ⟨⟨fun h => absurd (hop.symm.trans h) nofun, fun h => absurd (hop.symm.trans h) nofun,
    fun h => absurd (hrun.symm.trans (hdef h).1) nofun, fun t m h => ⟨hop, .inr (.inl ⟨startTimer_some h, rfl⟩)⟩,
    fun h => absurd (running.symm.trans h) nofun⟩, ?_, fun _ => .inr rfl, hrefresh⟩
  show (if s.dse.panelOn then some (refreshPeriod .dim) else s.dse.refreshTimer) = _
  rw [hperiod]
  cases hon : s.dse.panelOn <;> simp [hon]

theorem effect_darkExpiry (s : State) : Effect s (darkExpiry s) := by
  unfold darkExpiry
  refine .ite _ (fun ⟨hdim, htimer⟩ => ?_) fun _ => .refl s
  obtain ⟨n, htimer⟩ := timerRuns_iff.1 htimer
  rw [panelTurnOff_eq]
  refine effect_setPwu_setDse (fun hpow hpan => ?_) ⟨rfl, rfl, rfl⟩ s.dse.turnedOff_levels
  have running := hpow.running_of_timer htimer
  obtain ⟨hentry, hwake, hdef, hlaw, -⟩ := hpow
  obtain ⟨hop, -⟩ := hlaw _ _ htimer
  exact ⟨⟨fun h => absurd (hop.symm.trans h) nofun, fun h => absurd (hop.symm.trans h) nofun,
    fun h => ⟨rfl, hop⟩, fun t m h => ⟨hop, .inr (.inr ⟨startTimer_some h, rfl⟩)⟩,
    fun h => absurd (running.symm.trans h) nofun⟩, panelLaw_turnedOff hpan⟩

/-- Sleep entry begins out of reset, or where an expiry was deferred (R162). -/
theorem effect_beginSleepEntry {s : State} (hr : s.inReset = false) : Effect s (beginSleepEntry s) := by
  unfold beginSleepEntry
  refine .ite _ (fun _ => ?_) fun _ => .refl s
  dsimp only
  rw [panelTurnOff_eq]
  refine Effect.trans (t := (s.setPwu { s.pwu with
    power := .dark, op := .sleepEntry, timer := none, deferred := false }).setDse s.dse.turnedOff) ?_
    (effect_mapLanes fun i l => laneStep_stop i l s.pfe.levels)
  refine effect_setPwu_setDse (fun _ hpan => ?_) ⟨rfl, rfl, rfl⟩ s.dse.turnedOff_levels
  exact ⟨⟨fun _ => rfl, nofun, nofun, nofun, fun h => absurd (hr.symm.trans h) nofun⟩, panelLaw_turnedOff hpan⟩

theorem effect_setPwu_power {p : Pwu} {s : State} (h : PowerLaw s → PowerLaw (s.setPwu p)) (hpow : p.power = s.pwu.power)
    (hd : p.dim = s.pwu.dim ∧ p.dark = s.pwu.dark ∧ p.sleep = s.pwu.sleep) : Effect s (s.setPwu p) := by
  refine effect_setPwu_setDse (p := p) (d := s.dse) (fun hp hpan => ⟨h hp, ?_⟩) hd ⟨rfl, rfl, rfl⟩
  rwa [PanelLaw, State.setDse_dse, State.setDse_pwu, State.setPwu_pwu, hpow]

theorem effect_sleepExpiry {s : State} (hr : s.inReset = false) : Effect s (sleepExpiry s) := by
  unfold sleepExpiry
  refine .ite _ (fun ⟨hdark, htimer⟩ => .ite _ (fun _ => ?_) fun _ => effect_beginSleepEntry hr) fun _ => .refl s
  obtain ⟨n, htimer⟩ := timerRuns_iff.1 htimer
  refine effect_setPwu_power (fun hpow => ?_) rfl ⟨rfl, rfl, rfl⟩
  obtain ⟨hentry, hwake, -, hlaw, -⟩ := hpow
  exact ⟨hentry, hwake, fun _ => ⟨hdark, (hlaw _ _ htimer).1⟩, nofun, fun h => absurd (hr.symm.trans h) nofun⟩

theorem effect_takeDeferred {s : State} (hr : s.inReset = false ∨ s.pwu.deferred = false) : Effect s (takeDeferred s) := by
  unfold takeDeferred
  refine .ite _ (fun hd => ?_) fun _ => .refl s
  have running := hr.resolve_right (by rw [hd]; nofun)
  refine Effect.trans (t := s.setPwu { s.pwu with deferred := false })
    (effect_setPwu_power (fun hpow => ?_) rfl ⟨rfl, rfl, rfl⟩) (effect_beginSleepEntry running)
  obtain ⟨hentry, hwake, -, hlaw, hheld⟩ := hpow
  exact ⟨hentry, hwake, nofun, hlaw, fun h => absurd (running.symm.trans h) nofun⟩

theorem effect_wakeEvent (src : WakeSource) (s : State) : Effect s (wakeEvent src s) := by
  unfold wakeEvent
  refine .ite _ (fun hsleep => ?_) fun _ => .refl s
  refine effect_setPwu_power (fun hpow => ?_) rfl ⟨rfl, rfl, rfl⟩
  obtain ⟨-, -, hdef, hlaw, hheld⟩ := hpow
  refine ⟨nofun, fun _ => hsleep, fun h => absurd (hsleep.symm.trans (hdef h).1) nofun, fun t n h => ?_,
    fun h => absurd (hsleep.symm.trans (hheld h).1) nofun⟩
  obtain ⟨-, ⟨-, hp⟩ | ⟨-, hp⟩ | ⟨-, hp⟩⟩ := hlaw t n h <;> exact absurd (hsleep.symm.trans hp) nofun

theorem effect_pressEvent {s : State} (hr : s.inReset = false) : Effect s (pressEvent s) := by
  have toggled := (effect_setHold (!s.rte.hold) s).trans (effect_raise (c := .hold) nofun _)
  exact toggled.trans (effect_activityIf (toggled.inReset.trans hr) _)

theorem effect_debounce {s : State} (hr : s.inReset = false) : Effect s (debounce s) := by
  unfold debounce
  split
  · exact .refl s
  · next c _ =>
    refine Effect.trans (effect_setPwu (p := { s.pwu with keyPressed := c.pressed, keyCandidate := none }) rfl rfl rfl rfl id)
      (.ite _ (fun _ => ?_) fun _ => .refl _)
    unfold keyPress
    exact .ite _ (fun _ => .ite _ (fun _ => effect_wakeEvent _ _) fun _ => .refl _) fun _ => effect_pressEvent (by exact hr)

theorem effect_epochExpiry (s : State) : Effect s (epochExpiry s) := by
  unfold epochExpiry
  refine .ite _ (fun _ => Effect.trans (t := s.setRte { s.rte with epoch := min Config.epochMax (s.rte.epoch + 1) }) ?_
    (effect_setPfe_banks rfl)) fun _ => .refl s
  exact { records := fun ⟨he, hrecs⟩ => ⟨min_le_left _ _, fun r hr => by
    obtain ⟨h1, h2, h3, h4, h5, h6, h7⟩ := hrecs r hr
    have later : s.rte.epoch ≤ min Config.epochMax (s.rte.epoch + 1) := le_min he (Nat.le_succ _)
    exact ⟨h1, h2, h3.trans later, h4.trans later, fun e h => (h5 e h).trans later, h6, h7⟩⟩ }

end Sys2Proof.Machine
end

section
/-! SUPPORT. A lane keeps its law while it reads its bus: no change of levels turns it OFF, and what it posts is its own, at its
W (R22, R23, R47; chapters 2 to 5). -/

namespace Sys2Proof.Machine

/-- A posting is this lane's own, at its W (R23). -/
def Lane.owns (i : Fin 4) (l : Lane) : Prop :=
  ∀ p, l.slot = some p → p.key.lane = i ∧ p.width = l.cfg.w

/-- What decoding leaves of a lane: its configuration, enable and request; and where they held before, a state other than OFF,
a pointer table in its size, a posting of its own, and notes on set flags only. -/
structure Decodes (i : Fin 4) (l l' : Lane) : Prop where
  cfg : l'.cfg = l.cfg := by rfl
  enabled : l'.enabled = l.enabled := by rfl
  request : l'.request = l.request := by rfl
  state : l.state ≠ .off → l'.state ≠ .off := by exact id
  pointers : l.pointers.length ≤ Config.pointerCapacity → l'.pointers.length ≤ Config.pointerCapacity := by exact id
  others : l.cfg.kind ≠ .twoWire → l'.pointers = l.pointers := by exact fun _ => rfl
  owns : (l.cfg.kind = .management → l.cfg.w = 2) → l.owns i → l'.owns i := by exact fun _ => id
  notes : l.notes &&& ~~~l.flags = 0 → l'.notes &&& ~~~l'.flags = 0 := by exact id

variable {i : Fin 4} {l : Lane}

theorem Decodes.refl (i : Fin 4) (l : Lane) : Decodes i l l := {}

theorem Decodes.trans {l' l'' : Lane} (h : Decodes i l l') (g : Decodes i l' l'') : Decodes i l l'' where
  cfg := g.cfg.trans h.cfg
  enabled := g.enabled.trans h.enabled
  request := g.request.trans h.request
  state := g.state ∘ h.state
  pointers := g.pointers ∘ h.pointers
  others hk := (g.others (h.cfg ▸ hk)).trans (h.others hk)
  owns hm ho := g.owns (h.cfg.symm ▸ hm) (h.owns hm ho)
  notes := g.notes ∘ h.notes

theorem Decodes.ite {l1 l2 : Lane} {c : Prop} [Decidable c] (h : c → Decodes i l l1) (g : ¬ c → Decodes i l l2) :
    Decodes i l (if c then l1 else l2) := by
  split
  · next hc => exact h hc
  · next hc => exact g hc

/-- A lane that is not OFF keeps its law while it decodes. -/
theorem Decodes.laneStep {l' : Lane} (h : Decodes i l l') (hs : l.state ≠ .off) : LaneStep i l l' where
  law := by
    rintro ⟨hoff, -, hlen, hptr, hown, hnotes, hmgmt⟩
    have on : l'.state ≠ .off := h.state hs
    have owns := h.owns (fun hk => (hmgmt hk).1) hown
    rw [Lane.Law, h.cfg, h.enabled]
    refine ⟨⟨fun ho => absurd ho on, fun hn => absurd (hoff.2 hn) hs⟩, fun ho => absurd ho on, h.pointers hlen,
      fun hk => (h.others hk).trans (hptr hk), ?_, h.notes hnotes, hmgmt⟩
    rw [← h.cfg]
    exact owns
  config := by
    rw [h.cfg]
    exact id
  width := by
    rw [h.cfg, h.request]
    exact fun _ => id

theorem decodes_setFlag (f : LaneFlag) (l : Lane) : Decodes i l (l.setFlag f) where
  notes := by
    intro h
    ext n hn
    have bit := congrArg (fun x => x[n]) h
    simp only [Lane.setFlag, BitVec.getElem_and, BitVec.getElem_not, BitVec.getElem_or] at bit ⊢
    revert bit
    cases l.notes[n] <;> cases l.flags[n] <;> simp

theorem decodes_produce {t : BitVec 10} {r : BitVec 16} {d : Dir} {v : Word} {w : Nat}
    (hw : (l.cfg.kind = .management → l.cfg.w = 2) → w = l.cfg.w) : Decodes i l (l.produce ⟨⟨i, t, r⟩, d, v, w⟩) := by
  unfold Lane.produce
  split
  · refine { owns := fun hm _ q hq => ?_ }
    obtain rfl := Option.some.inj hq
    exact ⟨rfl, hw hm⟩
  · exact decodes_setFlag _ l

/-! ### Two-wire lanes -/

theorem decodes_twoPhase (ph : TwoPhase) (l : Lane) : Decodes i l (l.twoPhase ph) := {}

theorem decodes_endTransfer (l : Lane) : Decodes i l l.endTransfer := by
  unfold Lane.endTransfer
  split
  · exact decodes_setFlag _ l
  · exact .refl i l
  · exact decodes_setFlag _ l
  · exact decodes_setFlag _ l
  · exact .refl i l

theorem decodes_startCondition (l : Lane) : Decodes i l l.startCondition := by
  unfold Lane.startCondition
  split
  · exact .refl i l
  · exact { state := nofun }
  · exact { state := nofun }
  · exact (decodes_endTransfer l).trans {}

theorem decodes_stopCondition (l : Lane) : Decodes i l l.stopCondition.lane := by
  unfold Lane.stopCondition
  split
  · exact .refl i l
  · exact .refl i l
  · exact { state := nofun }
  · exact (decodes_endTransfer l).trans { state := nofun }

theorem length_setPointer (t : BitVec 10) (p : BitVec 16) (ptrs : List (BitVec 10 × BitVec 16)) :
    (setPointer t p ptrs).length ≤ Config.pointerCapacity := by
  simp only [setPointer, List.length_cons, List.length_take, Config.pointerCapacity]
  omega

theorem decodes_setPointer (hk : l.cfg.kind = .twoWire) (ph : TwoPhase) (t : BitVec 10) (p : BitVec 16) :
    Decodes i l { l.twoPhase ph with pointers := setPointer t p l.pointers } where
  pointers := fun _ => length_setPointer t p l.pointers
  others := fun h => absurd hk h

theorem decodes_beginRead (hk : l.cfg.kind = .twoWire) (t : BitVec 10) : Decodes i l (l.beginRead t) := by
  unfold Lane.beginRead
  split
  · exact decodes_setPointer hk _ t _
  · exact (decodes_setFlag .unknownPointer l).trans (decodes_twoPhase _ _)

theorem decodes_addressByte (hk : l.cfg.kind = .twoWire) (b : Byte) (ack : Bool) : Decodes i l (l.addressByte b ack) := by
  unfold Lane.addressByte
  have phase := fun ph => decodes_twoPhase (i := i) ph l
  refine .ite (fun _ => phase _) fun _ => .ite (fun _ => phase _) fun _ => .ite (fun _ => .ite (fun _ => ?_) fun _ => phase _)
    fun _ => .ite (fun _ => decodes_beginRead hk _) fun _ => phase _
  split
  · exact .ite (fun _ => decodes_beginRead hk _) fun _ => phase _
  · exact phase _

theorem decodes_pointerByte (hk : l.cfg.kind = .twoWire) (t : BitVec 10) (collected : List Byte) (b : Byte) (ack : Bool) :
    Decodes i l (l.pointerByte t collected b ack) := by
  unfold Lane.pointerByte
  exact .ite (fun _ => .ite (fun _ => decodes_setPointer hk _ t _) fun _ => {})
    fun _ => (decodes_setFlag .refusedByte l).trans (decodes_twoPhase _ _)

theorem decodes_postAtPointer (hk : l.cfg.kind = .twoWire) (t : BitVec 10) (dir : Dir) (register : List Byte) :
    Decodes i l (l.postAtPointer i t dir register) := by
  unfold Lane.postAtPointer
  have posted := decodes_produce (i := i) (l := l) (t := t) (r := (pointerOf t l.pointers).getD 0) (d := dir)
    (v := assemble l.cfg.byteOrder register) fun _ => rfl
  refine posted.trans { pointers := fun h => ?_, others := fun h => absurd (posted.cfg.symm ▸ hk) h }
  simpa [stepPointer] using h

theorem decodes_joinByte (hk : l.cfg.kind = .twoWire) (t : BitVec 10) (dir : Dir) (register : List Byte) (b : Byte) :
    Decodes i l (l.joinByte i t dir register b) := by
  unfold Lane.joinByte
  exact .ite (fun _ => (decodes_postAtPointer hk t dir _).trans (decodes_twoPhase _ _)) fun _ => {}

theorem decodes_controllerNack (l : Lane) : Decodes i l l.controllerNack := by
  unfold Lane.controllerNack
  split
  · exact {}
  · exact .refl i l

theorem decodes_dataByte (hk : l.cfg.kind = .twoWire) (t : BitVec 10) (dir : Dir) (register : List Byte) (b : Byte)
    (ack : Bool) : Decodes i l (l.dataByte i t dir register b ack) := by
  unfold Lane.dataByte
  split
  · exact .ite (fun _ => decodes_joinByte hk t _ register b)
      fun _ => (decodes_setFlag .refusedByte l).trans (decodes_twoPhase _ _)
  · exact .ite (fun _ => decodes_joinByte hk t _ register b)
      fun _ => (decodes_joinByte hk t _ register b).trans (decodes_controllerNack _)

theorem decodes_twoByte (hk : l.cfg.kind = .twoWire) (b : Byte) (ack : Bool) : Decodes i l (l.twoByte i b ack) := by
  unfold Lane.twoByte
  split
  · exact decodes_addressByte hk b ack
  · exact .ite (fun _ => {}) fun _ => {}
  · exact decodes_pointerByte hk _ _ b ack
  · exact decodes_dataByte hk _ _ _ b ack
  · exact .refl i l

theorem decodes_twoBit (hk : l.cfg.kind = .twoWire) (b : Bool) : Decodes i l (l.twoBit i b) := by
  unfold Lane.twoBit
  exact .ite (fun _ => Decodes.trans (l' := { l with two := { l.two with bits := [] } }) {} (decodes_twoByte (by exact hk) _ _)) fun _ => {}

theorem decodes_twoWireChange (hk : l.cfg.kind = .twoWire) (before after : Levels) :
    Decodes i l (twoWireChange i before after l).lane := by
  unfold twoWireChange
  dsimp only
  split
  · exact .ite (fun _ => {}) fun _ => .refl i l
  · split
    · split
      · exact Decodes.trans (l' := { l with two := { l.two with sample := none } }) {} (decodes_twoBit (by exact hk) _)
      · exact .refl i l
    · split
      · exact decodes_startCondition l
      · split
        · exact decodes_stopCondition l
        · exact .refl i l

/-! ### Four-wire lanes -/

theorem decodes_fourDataByte (a : Access) (register : List Byte) (b : Byte) (l : Lane) :
    Decodes i l (l.fourDataByte i a register b) := by
  unfold Lane.fourDataByte
  exact .ite (fun _ => Decodes.trans (decodes_produce fun _ => rfl) (by exact {})) fun _ => {}

theorem decodes_fourByte (cb tb : Byte) (l : Lane) : Decodes i l (l.fourByte i cb tb) := by
  unfold Lane.fourByte
  split
  · exact .ite (fun _ => {}) fun _ => {}
  · exact .ite (fun _ => {}) fun _ => {}
  · exact decodes_fourDataByte _ _ _ l
  · exact .refl i l

theorem decodes_fourBit (cd td : Bool) (l : Lane) : Decodes i l (l.fourBit i cd td) := by
  unfold Lane.fourBit
  exact .ite (fun _ => Decodes.trans (l' := { l with four := { l.four with cBits := [], tBits := [] } }) {}
    (decodes_fourByte _ _ _)) fun _ => {}

theorem decodes_judgeFrame (l : Lane) : Decodes i l l.judgeFrame := by
  unfold Lane.judgeFrame
  split
  · exact decodes_setFlag _ l
  · exact decodes_setFlag _ l
  · exact decodes_setFlag _ l
  · exact .refl i l

theorem decodes_closeFour (l : Lane) : Decodes i l l.closeFour.lane :=
  (decodes_judgeFrame l).trans { state := nofun }

theorem decodes_fourReleases (before after : Levels) (l : Lane) : Decodes i l (l.fourReleases before after).lane := by
  unfold Lane.fourReleases
  split
  · exact .refl i l
  · exact .refl i l
  · split
    · exact { state := nofun }
    · exact .refl i l
  · split <;> split
    · exact decodes_closeFour l
    · exact .refl i l
    · exact decodes_closeFour l
    · exact .refl i l

theorem decodes_contend (armed : Bool) (l : Lane) : Decodes i l (l.contend armed) :=
  (decodes_setFlag .contention l).trans { state := nofun }

theorem decodes_fourActivations (before after : Levels) (l : Lane) : Decodes i l (l.fourActivations before after) := by
  unfold Lane.fourActivations
  refine .ite (fun _ => ?_) fun _ => .refl i l
  split
  · exact .refl i l
  · exact .refl i l
  · split
    · exact { state := nofun }
    · exact decodes_contend _ l
  · exact .ite (fun _ => .refl i l) fun _ => decodes_contend _ l

theorem decodes_fourWireChange (before after : Levels) (l : Lane) : Decodes i l (fourWireChange i before after l).lane := by
  have sampled : Decodes i l (l.fourSample i before after) := .ite (fun _ => decodes_fourBit _ _ l) fun _ => .refl i l
  have armed : Decodes i _ ((l.fourSample i before after).fourArm after) := .ite (fun _ => {}) fun _ => .refl i _
  exact ((sampled.trans armed).trans (decodes_fourReleases before after _)).trans (decodes_fourActivations before after _)

/-! ### Management lanes -/

theorem decodes_mgmtSeek (b : Bool) (l : Lane) : Decodes i l (l.mgmtSeek b) := by
  unfold Lane.mgmtSeek
  exact .ite (fun _ => { state := fun _ => by dsimp only; split <;> nofun }) fun _ => {}

theorem decodes_mgmtResync (l : Lane) : Decodes i l l.mgmtResync := { state := nofun }

theorem decodes_mgmtIdle (b : Bool) (l : Lane) : Decodes i l (l.mgmtIdle b) := by
  unfold Lane.mgmtIdle
  split
  · exact {}
  · exact .ite (fun _ => {}) fun _ => decodes_mgmtResync l
  · exact { state := nofun }
  · exact decodes_mgmtResync l

theorem decodes_mgmtFrame (hk : l.cfg.kind = .management) (b : Bool) : Decodes i l (l.mgmtFrame i b).lane := by
  unfold Lane.mgmtFrame
  split
  · split
    · unfold Lane.mgmtOperation
      split
      · exact {}
      · exact {}
      · exact (decodes_setFlag .unsupported l).trans (decodes_mgmtResync _)
    · exact {}
  · split <;> exact {}
  · split <;> exact {}
  · split
    · unfold Lane.mgmtTurnaround
      split
      · exact (decodes_setFlag .noResponse l).trans (decodes_mgmtResync _)
      · exact {}
    · exact {}
  · split
    · exact Decodes.trans (decodes_produce fun hm => (hm hk).symm) (by exact { state := nofun })
    · exact {}

theorem decodes_managementChange (hk : l.cfg.kind = .management) (before after : Levels) :
    Decodes i l (managementChange i before after l).lane := by
  unfold managementChange
  split
  · unfold Lane.mgmtBit
    split
    · exact .refl i l
    · exact decodes_mgmtSeek _ l
    · exact decodes_mgmtIdle _ l
    · exact decodes_mgmtFrame hk _
  · exact .refl i l

/-! ### A lane of any kind -/

/-- A lane keeps its law over every change of levels (R6, R22). -/
theorem laneStep_laneChange (i : Fin 4) (before after : Levels) (l : Lane) :
    LaneStep i l (laneChange i before after l).lane := by
  unfold laneChange
  split
  · exact .refl i l
  · next hs =>
    split
    · exact .refl i l
    · next hk => exact (decodes_twoWireChange hk before after).laneStep hs
    · exact (decodes_fourWireChange before after l).laneStep hs
    · next hk =>
      exact (decodes_managementChange hk before after).laneStep hs

end Sys2Proof.Machine
end

section
/-! SUPPORT. The laws kept by the Probe Front End, the WTA, the RTE and the PIM: edges offered to the lanes, watch slots,
admission and absorption, and the items of a profile image (chapters 1, 6, 7 and 11). -/

namespace Sys2Proof.Machine

/-! ### Probes -/

/-- A walk whose turns are effects out of reset. -/
theorem Effect.foldl_running {α : Type} {f : State → α → State} (h : ∀ s a, s.inReset = false → Effect s (f s a))
    (as : List α) {s : State} (hr : s.inReset = false) : Effect s (as.foldl f s) := by
  induction as generalizing s with
  | nil => exact .refl s
  | cons a as ih => exact (h s a hr).trans (ih ((h s a hr).inReset.trans hr))

theorem effect_offerTo {before after : Levels} {s : State} (hr : s.inReset = false) (i : Fin 4) :
    Effect s (offerTo before after s i) := by
  have read : Effect s (s.setLane i (laneChange i before after s.lanes[i]).lane) :=
    effect_setLane (laneStep_laneChange i before after _)
  have raised := effect_raiseIf (c := .lane) nofun (flagRose (s.lanes[i]).flags (laneChange i before after s.lanes[i]).lane.flags)
    (s.setLane i (laneChange i before after s.lanes[i]).lane)
  exact (read.trans raised).trans (effect_activityIf ((read.trans raised).inReset.trans hr) _)

theorem effect_offer {s : State} (hr : s.inReset = false) (before : Levels) : Effect s (offer before s) :=
  .ite _ (fun _ => .refl s) fun _ => .foldl_running (fun _ i h => effect_offerTo h i) _ hr

theorem effect_movePfe {x : Pfe} {s : State} (hr : s.inReset = false)
    (hx : ∀ b : Fin 2, (s.pfe.banks[b]).Law → (x.banks[b]).Law) : Effect s (movePfe x s) :=
  (effect_setPfe hx).trans (effect_offer (by exact hr) _)

theorem thresholdCode_range (n : Nat) : 10 ≤ thresholdCode n ∧ thresholdCode n ≤ 250 := by
  unfold thresholdCode
  omega

theorem bankLaw_setBank (r : BankRequest) (x : Pfe) (b : Fin 2) (h : (x.banks[b]).Law) :
    ((x.setBank r.bank r.millivolts r.width).banks[b]).Law := by
  simp only [Pfe.setBank, Fin.getElem_fin, Vector.getElem_set]
  split
  · exact ⟨(thresholdCode_range _).1, (thresholdCode_range _).2, min_le_left _ _⟩
  · exact h

theorem bankLaw_setBanks (rs : List BankRequest) (x : Pfe) (b : Fin 2) (h : (x.banks[b]).Law) :
    ((rs.foldl (fun x r => x.setBank r.bank r.millivolts r.width) x).banks[b]).Law := by
  induction rs generalizing x with
  | nil => exact h
  | cons r rs ih => exact ih _ (bankLaw_setBank r x b h)

theorem effect_applyBanks (rs : List BankRequest) {s : State} (hr : s.inReset = false) : Effect s (applyBanks rs s) :=
  effect_movePfe hr fun b h => bankLaw_setBanks rs _ b h

theorem effect_qualify (e : DueEdges) {s : State} (hr : s.inReset = false) : Effect s (qualify e s) :=
  .ite _ (fun _ => .refl s) fun _ => .ite _ (fun _ => effect_setPfe_banks rfl) fun _ => effect_movePfe hr fun _ => id

theorem effect_wakeEdgeAt (p : Fin 16) (level : Bool) (s : State) : Effect s (wakeEdgeAt p level s) :=
  .ite _ (fun _ => effect_wakeEvent _ s) fun _ => .refl s

theorem effect_wakeFilterAt (s : State) (p : Fin 16) : Effect s (wakeFilterAt s p) := by
  unfold wakeFilterAt
  split
  · exact .refl s
  · next w _ =>
    dsimp only
    refine Effect.trans (effect_setPfe_banks (x := { s.pfe with probes := modifyAt s.pfe.probes p fun x =>
      { x with wake := some (w.filtered (s.pfe.bank p).width (s.pfe.raw p)).1 } }) rfl) ?_
    cases (w.filtered (s.pfe.bank p).width (s.pfe.raw p)).2 with
    | none => exact .refl _
    | some level => exact effect_wakeEdgeAt p level _

theorem effect_wakeFilters (ps : List (Fin 16)) (s : State) : Effect s (wakeFilters ps s) :=
  .foldl effect_wakeFilterAt ps s

theorem effect_wakeSideEdge (p : Fin 16) (s : State) : Effect s (wakeSideEdge p s) := by
  unfold wakeSideEdge
  refine .ite _ (fun _ => ?_) fun _ => .refl s
  split
  · next c _ => exact Effect.trans (effect_setPfe_banks (x := { s.pfe with probes := modifyAt s.pfe.probes p fun x =>
      { x with wake := some ⟨c.level, none⟩ } }) rfl) (effect_wakeEdgeAt p c.level _)
  · exact .refl s

theorem Pfe.filterWhere_banks (which : Fin 16 → Bool) (x : Pfe) : (x.filterWhere which).banks = x.banks := by
  unfold Pfe.filterWhere
  rfl

theorem Pfe.withPins_banks (cs : List PinChange) (x : Pfe) : (x.withPins cs).banks = x.banks := by
  unfold Pfe.withPins
  rfl

theorem Pfe.qualify_banks (ps : List (Fin 16)) (x : Pfe) : (x.qualify ps).banks = x.banks := by
  unfold Pfe.qualify
  rfl

theorem effect_rawLevelChange (cs : List PinChange) (due : List (Fin 16)) {s : State} (hr : s.inReset = false) :
    Effect s (rawLevelChange cs due s) := by
  unfold rawLevelChange
  dsimp only
  refine .ite _ (fun _ => ?_) fun _ => effect_movePfe hr ?_
  · have pins : Effect s (s.setPfe (s.pfe.withPins cs)) := effect_setPfe_banks rfl
    exact pins.trans (effect_wakeFilters _ _)
  · rw [Pfe.filterWhere_banks, Pfe.withPins_banks, Pfe.qualify_banks]
    exact fun _ h => h

/-- The part stands in SLEEP as sleep entry completes (R163). -/
theorem effect_enterSleep {s : State} (h : s.pwu.op = .sleepEntry) :
    Effect s (s.setPwu { s.pwu with power := .sleep, op := .none }) := by
  refine effect_setPwu_setDse (p := { s.pwu with power := .sleep, op := .none }) (d := s.dse) (fun hpow hpan => ?_)
    ⟨rfl, rfl, rfl⟩ ⟨rfl, rfl, rfl⟩
  obtain ⟨hentry, -, hdef, hlaw, hheld⟩ := hpow
  obtain ⟨htimer, hstate, hrefresh⟩ := hpan
  have dark := hentry h
  have off : s.dse.panelOn = false := by
    by_contra hon
    rcases hstate (by simpa using hon) with hp | hp <;> rw [dark] at hp <;> cases hp
  refine ⟨⟨nofun, nofun, fun hd => absurd (h.symm.trans (hdef hd).2) nofun,
    fun t n ht => absurd (h.symm.trans (hlaw t n ht).1) nofun, fun hr => absurd (h.symm.trans (hheld hr).2.1) nofun⟩, ?_⟩
  show s.dse.refreshTimer = (if s.dse.panelOn then _ else none) ∧ (s.dse.panelOn = true → _) ∧ _
  rw [htimer, off]
  exact ⟨rfl, nofun, fun hrf => (off.symm.trans (hrefresh hrf)).symm ▸ hrefresh hrf⟩

theorem effect_sleepEntryCompletion (s : State) : Effect s (sleepEntryCompletion s) := by
  unfold sleepEntryCompletion
  refine .ite _ (fun h => ?_) fun _ => .refl s
  have entry : s.pwu.op = .sleepEntry := by
    simp only [sleepEntryDone, Bool.and_eq_true, decide_eq_true_eq] at h
    exact h.1.1.1
  dsimp only
  refine Effect.trans (effect_enterSleep entry) (Effect.trans (effect_setRte (x := { s.rte with epochTimer := false })
    rfl rfl rfl rfl) (Effect.trans (effect_setPfe_banks ?_) (effect_wakeFilters _ _)))
  rfl

theorem effect_wakeSteps {s : State} (h : s.pwu.op = .wake) : Effect s (wakeSteps s) := by
  have notDim : PowerLaw s → s.pwu.power ≠ .dim := fun ⟨_, hwake, _⟩ => by
    rw [hwake h]
    nofun
  have running := effect_toRun (.inr (by rw [h]; nofun)) notDim
  have probes : Effect (s.setPwu s.pwu.toRun) ((s.setPwu s.pwu.toRun).setPfe s.pfe.wakeUp) := effect_setPfe_banks rfl
  have timer : Effect ((s.setPwu s.pwu.toRun).setPfe s.pfe.wakeUp) (((s.setPwu s.pwu.toRun).setPfe s.pfe.wakeUp).setRte
      { s.rte with epochTimer := true }) := effect_setRte rfl rfl rfl rfl
  exact ((((running.trans probes).trans timer).trans (effect_restartEnabled _)).trans (effect_raise (c := .wake) nofun _)).trans
    (effect_panelTurnOn (.inl rfl))

/-! ### Watch slots and trap windows -/

/-- A slot changed without its binding (R118). -/
theorem effect_modifySlot {i : Fin 8} {f : Slot → Slot} {s : State} (h : ∀ x, (f x).boundKey = x.boundKey) :
    Effect s (modifySlot i f s) where
  binding := by
    have same : ∀ j : Fin 8, ((modifySlot i f s).wta.slots[j]).boundKey = (s.wta.slots[j]).boundKey := by
      intro j
      rw [modifySlot, State.setWta_wta, modifyAt_get]
      split
      · next hij => rw [h, hij]
      · rfl
    rintro - ⟨hslots, hrecs⟩
    exact ⟨fun j k hk => hslots j k ((same j).symm.trans hk), fun r hr j hj => (same j).trans (hrecs r hr j hj)⟩

theorem Slot.boundKey_report (v : Word) (x : Slot) : (x.report v).boundKey = x.boundKey := by
  unfold Slot.report
  split <;> rfl

theorem Slot.boundKey_mark (x : Slot) : x.mark.boundKey = x.boundKey := by
  unfold Slot.mark
  split <;> rfl

theorem Slot.boundKey_delivered (x : Slot) : x.delivered.boundKey = x.boundKey := by
  unfold Slot.delivered
  split <;> rfl

theorem Slot.boundKey_lost (x : Slot) : x.lost.boundKey = x.boundKey := by
  unfold Slot.lost
  split <;> rfl

theorem modifySlot_get (i j : Fin 8) (f : Slot → Slot) (s : State) :
    (modifySlot i f s).wta.slots[j] = if i = j then f s.wta.slots[i] else s.wta.slots[j] :=
  modifyAt_get _ _ _ _

/-- The record of a key named or released by a slot that changes with it: every law but that of the bindings is kept. -/
theorem effect_rebind {i : Fin 8} {x : Slot} {k : Key} {w : Option (Fin 8)} {s : State}
    (hb : TableLaw s → BindingLaw s →
      BindingLaw (modifySlot i (fun _ => x) (modifyRecord k (fun r => { r with watch := w }) s))) :
    Effect s (modifySlot i (fun _ => x) (modifyRecord k (fun r => { r with watch := w }) s)) where
  table := by
    rintro ⟨hlen, hord⟩
    have keys := updateRecord_order (k := k) (f := fun r => { r with watch := w }) (fun _ h => h) s.rte.table
    refine ⟨by simpa [modifySlot, modifyRecord, updateRecord] using hlen, ?_⟩
    show ((updateRecord k _ s.rte.table).map _).Pairwise _
    rw [keys]
    exact hord
  binding := hb
  records := by
    rintro ⟨he, hrecs⟩
    refine ⟨he, fun y hy => ?_⟩
    obtain ⟨r, hr, rfl⟩ := mem_updateRecord.1 hy
    split
    · exact hrecs r hr
    · exact hrecs r hr
  widths := by
    intro _ _ hwid y hy
    obtain ⟨r, hr, rfl⟩ := mem_updateRecord.1 hy
    split
    · exact hwid r hr
    · exact hwid r hr

/-- The binding of a slot broken at both ends (R118, R120). -/
theorem effect_unbind (i : Fin 8) (s : State) : Effect s (unbind i s) := by
  unfold unbind
  cases hk : (s.wta.slots[i]).boundKey with
  | none =>
    have free : ∀ j : Fin 8, ((modifySlot i (fun _ => .free) s).wta.slots[j]).boundKey = (s.wta.slots[j]).boundKey := by
      intro j
      rw [modifySlot_get]
      split
      · next hij =>
        subst hij
        exact hk.symm
      · rfl
    exact { binding := fun _ ⟨hslots, hrecs⟩ =>
      ⟨fun j k h => hslots j k ((free j).symm.trans h), fun r hr j hj => (free j).trans (hrecs r hr j hj)⟩ }
  | some k =>
    refine effect_rebind fun ht ⟨hslots, hrecs⟩ => ⟨fun j k' h => ?_, fun x hx j hj => ?_⟩
    · rw [modifySlot_get] at h
      split at h
      · cases h
      · next hij =>
        obtain ⟨r, hr, hrk, hrw⟩ := hslots j k' h
        have other : r.key ≠ k := by
          intro hrk'
          obtain ⟨b, hb, hbk, hbw⟩ := hslots i k hk
          rw [ht.record_inj hr hb (hrk'.trans hbk.symm), hbw] at hrw
          exact hij (Option.some.inj hrw)
        exact ⟨r, mem_updateRecord.2 ⟨r, hr, (if_neg other).symm⟩, hrk, hrw⟩
    · obtain ⟨r, hr, rfl⟩ := mem_updateRecord.1 hx
      split at hj
      · cases hj
      · next hrk =>
        have bound := hrecs r hr j hj
        rw [modifySlot_get, if_neg, if_neg hrk]
        · exact bound
        · rintro rfl
          exact hrk (Option.some.inj (bound.symm.trans hk))

/-- A free slot armed on a record that no slot watches (R119). -/
theorem effect_watchSet {i : Fin 8} {k : Key} {r : Record} {s : State} (hfree : s.wta.slots[i] = .free)
    (hr : lookup k s.rte.table = some r) (hw : r.watch = none) :
    Effect s (modifySlot i (fun _ => .armed k) (modifyRecord k (fun r => { r with watch := some i }) s)) := by
  refine effect_rebind fun ht ⟨hslots, hrecs⟩ => ⟨fun j k' h => ?_, fun x hx j hj => ?_⟩
  · rw [modifySlot_get] at h
    split at h
    · next hij =>
      subst hij
      obtain rfl := Option.some.inj h
      exact ⟨{ r with watch := some i }, mem_updateRecord.2 ⟨r, lookup_mem hr, (if_pos (lookup_key hr)).symm⟩,
        show r.key = k from lookup_key hr, rfl⟩
    · obtain ⟨x, hx, hxk, hxw⟩ := hslots j k' h
      have other : x.key ≠ k := by
        intro hxk'
        rw [ht.eq_of_lookup hr hx hxk', hw] at hxw
        cases hxw
      exact ⟨x, mem_updateRecord.2 ⟨x, hx, (if_neg other).symm⟩, hxk, hxw⟩
  · obtain ⟨y, hy, rfl⟩ := mem_updateRecord.1 hx
    rw [modifySlot_get]
    split at hj
    · next hyk =>
      obtain rfl := Option.some.inj hj
      rw [if_pos rfl, if_pos hyk]
      exact congrArg some hyk.symm
    · next hyk =>
      have bound := hrecs y hy j hj
      rw [if_neg, if_neg hyk]
      · exact bound
      · rintro rfl
        rw [hfree] at bound
        cases bound

theorem effect_writeTrap (i : Fin 4) (t : Trap) (s : State) : Effect s (writeTrap i t s) := effect_setWta rfl rfl

theorem effect_matchTraps (p : Posting) (s : State) : Effect s (matchTraps p s) :=
  Effect.trans (t := s.setWta { s.wta with traps := mapAll (fun t => if t.hit p then t.counted p.key else t) s.wta.traps })
    (effect_setWta rfl rfl) (effect_raiseIf (c := .trap) nofun _ _)

/-- Causes are acknowledged, and with ADMIT the first-refused capture goes (R94, R134). -/
theorem effect_acknowledge (m : BitVec 9) (s : State) : Effect s (acknowledge m s) := by
  rw [acknowledge_eq]
  have single : Cause.admission.bit = BitVec.twoPow 9 4 := rfl
  have shows (x : BitVec 9) : (x &&& Cause.admission.bit != 0) = x.getLsbD 4 := by
    rw [single, BitVec.and_twoPow]
    cases x.getLsbD 4 <;> decide
  refine { capture := fun h => ?_ }
  · rw [CaptureLaw, shows] at h
    show Option.isSome (if m.getLsbD 4 = true then none else s.rte.capture) = (_ : Bool)
    rw [State.setRte_wta, State.setWta_wta, shows, BitVec.getLsbD_and, BitVec.getLsbD_not]
    cases m.getLsbD 4 with
    | true => simp
    | false => simpa using h

/-! ### Admission and absorption -/

/-- A refused admission fills the capture and raises ADMIT (R94). -/
theorem effect_refuseAdmission (k : Key) (s : State) : Effect s (refuseAdmission k s) where
  capture := by
    intro _
    have set (x : BitVec 9) : (x ||| Cause.admission.bit) &&& Cause.admission.bit = Cause.admission.bit := by
      ext n hn
      rw [BitVec.getElem_and, BitVec.getElem_or]
      cases x[n] <;> cases Cause.admission.bit[n] <;> rfl
    show true = ((s.wta.causes ||| Cause.admission.bit) &&& Cause.admission.bit != 0)
    rw [set]
    rfl

theorem lookup_none_of_subset {k : Key} {t t' : List Record} (h : lookup k t = none) (hs : ∀ r ∈ t', r ∈ t) :
    lookup k t' = none :=
  lookup_none.2 fun r hr => lookup_none.1 h r (hs r hr)

/-- The record just created is the one of its key. -/
theorem lookup_insertRecord {r : Record} {t : List Record} (h : ∀ x ∈ t, x.key ≠ r.key) :
    lookup r.key (insertRecord r t) = some r := by
  induction t with
  | nil => simp [insertRecord, lookup]
  | cons y ys ih =>
    have rest := ih fun x hx => h x (List.mem_cons_of_mem _ hx)
    have first := h y List.mem_cons_self
    simp only [insertRecord]
    split
    · simp [lookup]
    · simpa [lookup, first] using rest

/-- Eviction leaves the keys that have no record without one. -/
theorem lookup_retireRecord_none {k : Key} {c : Record} {s : State} (h : lookup k s.rte.table = none) :
    lookup k (retireRecord c s).rte.table = none := by
  rw [retireRecord_eq]
  exact lookup_none_of_subset h fun r hr => (mem_removeRecord.1 hr).1

theorem retireRecord_fields (c : Record) (s : State) :
    (retireRecord c s).lanes = s.lanes ∧ (retireRecord c s).rte.table = removeRecord c.key s.rte.table
      ∧ (retireRecord c s).rte.epoch = s.rte.epoch := by
  rw [retireRecord_eq]
  exact ⟨rfl, rfl, rfl⟩

/-- Admission, after an effect, of a key without a record, at its lane's W (R92 to R94). -/
theorem Effect.admitKey {k : Key} {w : Nat} {s t : State} (h : Effect s t) (habs : lookup k t.rte.table = none)
    (hw : LanesLaw s → w = (t.lanes[k.lane]).cfg.w) : Effect s (admitKey k w t).1 := by
  rcases admit_cases k w t with ⟨hroom, heq⟩ | ⟨-, ⟨c, hc, heq⟩ | ⟨-, heq⟩⟩
  · rw [heq]
    exact h.createRecord habs (fun _ => hroom) hw
  · rw [heq]
    have hmem := (evictionCandidate_spec hc).1
    obtain ⟨lanes, table, -⟩ := retireRecord_fields c t
    refine (h.trans (effect_retireRecord hmem)).createRecord (lookup_retireRecord_none habs) (fun ht => ?_) ?_
    · rw [table]
      exact (length_removeRecord hmem).trans_le (h.table ht).1
    · rw [lanes]
      exact hw
  · rw [heq]
    exact h.trans (effect_refuseAdmission k t)

/-- The record that an accepted admission leaves under the key, and what admission leaves alone (R92). -/
theorem admitKey_accepted {k : Key} {w : Nat} {s : State} (habs : lookup k s.rte.table = none)
    (h : (admitKey k w s).2 = true) :
    lookup k (admitKey k w s).1.rte.table = some (newRecord k w (admitKey k w s).1.rte.epoch) := by
  have created (t : State) (ht : lookup k t.rte.table = none) :
      lookup k (createRecord k w t).rte.table = some (newRecord k w (createRecord k w t).rte.epoch) :=
    lookup_insertRecord (r := newRecord k w t.rte.epoch) (lookup_none.1 ht)
  rcases admit_cases k w s with ⟨-, heq⟩ | ⟨-, ⟨c, -, heq⟩ | ⟨-, heq⟩⟩
  · rw [heq]
    exact created s habs
  · rw [heq]
    exact created _ (lookup_retireRecord_none habs)
  · rw [heq] at h
    cases h

/-- An amendment of the record of a key (R111). -/
theorem effect_amendRecord {a : Amendment} {r : Record} {s : State} (hr : lookup r.key s.rte.table = some r) :
    Effect s (amendRecord a r s) := by
  unfold amendRecord
  refine (effect_modifyRecord hr ?_ ?_ ?_ fun _ hl => ?_).trans (effect_raiseIf (c := .mismatch) nofun _ _)
  · unfold Record.amendExpectation
    split <;> rfl
  · unfold Record.amendExpectation
    split <;> rfl
  · unfold Record.amendExpectation
    split <;> rfl
  · obtain ⟨h1, h2, h3, h4, h5, h6, h7⟩ := hl
    have changes : (r.amendPlain a).changes ≤ Config.countMax := by
      show (if a.clearChanges then 0 else r.changes) ≤ _
      split
      · exact Nat.zero_le _
      · exact h2
    have mismatched : (r.amendPlain a).mismatched = true → r.expectation.isSome := fun h =>
      h7 (Bool.and_eq_true _ _ ▸ h).1
    unfold Record.amendExpectation
    split
    · exact ⟨h1, changes, h3, h4, h5, h6, mismatched⟩
    · exact ⟨h1, changes, h3, h4, h5, h6, nofun⟩
    · exact ⟨h1, changes, h3, h4, h5, h6, fun _ => rfl⟩

theorem absorb_fields (p : Posting) (hold : Bool) (epoch : Nat) (r : Record) :
    (r.absorb p hold epoch).key = r.key ∧ (r.absorb p hold epoch).width = r.width
      ∧ (r.absorb p hold epoch).watch = r.watch := by
  unfold Record.absorb
  dsimp only
  split <;> exact ⟨rfl, rfl, rfl⟩

/-- A record that absorbs a posting stays in its ranges (R95 to R98). -/
theorem law_absorb {p : Posting} {hold : Bool} {epoch : Nat} {r : Record} (h : r.Law epoch hold) :
    (r.absorb p hold epoch).Law epoch hold := by
  obtain ⟨-, h2, -, -, h5, h6, h7⟩ := h
  have heat : min 65535 (decayedHeat (r.observe p) epoch + heatOf p.dir) ≤ 65535 := min_le_left _ _
  have mismatched : ((r.observe p).refresh p epoch).mismatched = true → r.expectation.isSome := by
    show (r.mismatched || r.expectation.elim false fun x => x.disagrees p.value) = true → _
    cases hx : r.expectation with
    | none => simpa [hx] using h7
    | some x => exact fun _ => rfl
  have held : (r.heldAfter hold).isSome → hold = true := by
    unfold Record.heldAfter
    split
    · exact fun _ => rfl
    · exact h6
  unfold Record.absorb
  dsimp only
  split
  · exact ⟨heat, min_le_left _ _, le_rfl, le_rfl, fun e he => (Option.some.inj he).ge, held, mismatched⟩
  · exact ⟨heat, h2, le_rfl, le_rfl, h5, h6, mismatched⟩

theorem effect_reportChange (p : Posting) (r : Record) (s : State) : Effect s (reportChange p r s) := by
  unfold reportChange
  refine .ite _ (fun _ => ?_) fun _ => .refl _
  cases r.watch with
  | none => exact .refl _
  | some i => exact effect_modifySlot (Slot.boundKey_report _)

theorem effect_absorbInto {r : Record} {p : Posting} {s : State} (hr : lookup p.key s.rte.table = some r) :
    Effect s (absorbInto r p s) := by
  obtain ⟨key, width, watch⟩ := absorb_fields p s.rte.hold s.rte.epoch r
  have updated := effect_modifyRecord hr key width watch fun _ hl => law_absorb (p := p) hl
  exact ((updated.trans (effect_raiseIf (c := .diverge) nofun _ _)).trans
    (effect_raiseIf (c := .mismatch) nofun _ _)).trans (effect_reportChange p r _)

/-- A posting past the windows, after an effect: its width is its lane's W (R92). -/
theorem Effect.absorbKept {p : Posting} {s t : State} (h : Effect s t)
    (hw : LanesLaw s → p.width = (t.lanes[p.key.lane]).cfg.w) : Effect s (absorbKept p t) := by
  unfold Machine.absorbKept
  split
  · next r hr => exact h.trans (effect_absorbInto hr)
  · next hr =>
    have admitted := h.admitKey hr hw
    have found := admitKey_accepted (w := p.width) hr
    split
    · next u hu =>
      rw [hu] at admitted found
      exact admitted.trans (effect_absorbInto (found rfl))
    · next u hu =>
      rw [hu] at admitted
      exact admitted

theorem finishUnit_effect (p : Position) (s : State) : Effect s (finishUnit p s) := effect_setRte rfl rfl rfl rfl

theorem Effect.unitAt {p : Position} {f : State → State} {s : State} (h : Effect s (f s)) : Effect s (unitAt p f s) :=
  .ite _ (fun _ => h.trans (finishUnit_effect p _)) fun _ => .refl s

theorem effect_emptySlot (i : Fin 4) (s : State) : Effect s (emptySlot i s) :=
  effect_setLane
    { law := fun ⟨h1, _, h3, h4, _, h6, h7⟩ => ⟨h1, fun _ => rfl, h3, h4, nofun, h6, h7⟩ }

theorem matchTraps_lanes (p : Posting) (s : State) : (matchTraps p s).lanes = s.lanes := by
  rw [matchTraps_eq]
  rfl

theorem effect_absorption (i : Fin 4) (s : State) : Effect s (absorption i s) := by
  unfold absorption
  split
  · next p _ hslot =>
    refine Effect.unitAt ?_
    have counted := (effect_emptySlot i s).trans (effect_matchTraps p _)
    unfold absorbPosting
    refine .ite _ (fun _ => counted) fun _ => counted.absorbKept fun hl => ?_
    obtain ⟨-, -, -, -, hown, -, -⟩ := hl i
    obtain ⟨rfl, hwidth⟩ := hown p hslot
    rw [matchTraps_lanes, hwidth]
    simp [emptySlot]
  · exact .refl s

/-! ### Marking and retirement -/

theorem effect_markLane (i : Fin 4) (s : State) : Effect s (markLane i s) := by
  have fields (r : Record) : (r.markFor i).key = r.key ∧ (r.markFor i).width = r.width ∧ (r.markFor i).watch = r.watch
      ∧ (r.Law s.rte.epoch s.rte.hold → (r.markFor i).Law s.rte.epoch s.rte.hold) := by
    unfold Record.markFor
    split <;> exact ⟨rfl, rfl, rfl, id⟩
  exact effect_mapRecords (fun r => (fields r).1) (fun r => (fields r).2.1) (fun r => (fields r).2.2.1)
    fun r => (fields r).2.2.2

/-- A marking served: the request goes (R100). -/
theorem effect_clearMarking {i : Fin 4} {s : State} (h : (s.lanes[i]).request = some .marking) :
    Effect s (clearRequest i s) :=
  effect_setLane
    { law := id
      width := fun _ => by
        rw [h]
        rintro (hw | hr)
        · exact .inl hw
        · cases hr }

theorem retireLane_gone (i : Fin 4) (s : State) : ∀ r ∈ (retireLane i s).rte.table, r.key.lane ≠ i := by
  unfold retireLane
  rw [retireAll_eq]
  intro r hr hi
  obtain ⟨ht, hapart⟩ := List.mem_filter.1 hr
  have self := List.all_eq_true.1 hapart r (List.mem_filter.2 ⟨ht, by simpa using hi⟩)
  simp at self

/-- A retirement served: the lane's records have gone, and then its request (R33, R100). -/
theorem effect_clearRetirement {i : Fin 4} {s : State} (h : ∀ r ∈ s.rte.table, r.key.lane ≠ i) :
    Effect s (clearRequest i s) := by
  have other (j : Fin 4) : ((clearRequest i s).lanes[j]).cfg = (s.lanes[j]).cfg
      ∧ ((s.lanes[j]).Law j → ((clearRequest i s).lanes[j]).Law j)
      ∧ (j ≠ i → (clearRequest i s).lanes[j] = s.lanes[j]) := by
    show ((s.lanes.set i { s.lanes[i] with request := none })[j]).cfg = _ ∧ (_ → ((s.lanes.set i _)[j]).Law j)
      ∧ (_ → (s.lanes.set i _)[j] = _)
    simp only [Fin.getElem_fin, Vector.getElem_set]
    by_cases hij : i.val = j.val
    · obtain rfl := Fin.ext hij
      rw [if_pos rfl]
      exact ⟨rfl, id, fun hne => absurd rfl hne⟩
    · rw [if_neg hij]
      exact ⟨rfl, id, fun _ => rfl⟩
  exact
    { lanes := fun hl j => (other j).2.1 (hl j)
      widths := fun _ _ hw r hr => by
        rw [(other r.key.lane).2.2 (h r hr)]
        exact hw r hr
      settings := fun ⟨hl, hrest⟩ => ⟨fun j => by
        rw [(other j).1]
        exact hl j, hrest⟩ }

end Sys2Proof.Machine
end

section
/-! SUPPORT. The laws kept by every service of a command, by delivery and loss, and by the settings block, the seeds and the
stages of the PIM (chapters 10 and 11). -/

namespace Sys2Proof.Machine

/-! ### Settings -/

/-- A configuration that LANE-SET accepts lies in the values of R18. -/
theorem parseLaneConfig_law {b : List Byte} {c : LaneConfig} (h : parseLaneConfig b = some c) :
    c.Law ∧ (c.kind = .management → c.w = 2 ∧ c.a = 1) := by
  unfold parseLaneConfig at h
  split at h
  · next kind bo bi po au _ _ _ _ _ =>
    dsimp only at h
    split at h
    · next hc =>
      obtain ⟨hmode, hwidths, -, -⟩ := hc
      cases h
      have selects : 1 ≤ clampSelects (byteAt b 8) ∧ clampSelects (byteAt b 8) ≤ 4 := by
        unfold clampSelects
        omega
      by_cases hm : kind = .management
      · subst hm
        exact ⟨⟨.inr (.inl rfl), .inl rfl, hmode, selects.1, selects.2, min_le_left _ _, min_le_left _ _⟩,
          fun _ => ⟨rfl, rfl⟩⟩
      · have widths : (byteAt b 1 = 1 ∨ byteAt b 1 = 2 ∨ byteAt b 1 = 4) ∧ (byteAt b 2 = 1 ∨ byteAt b 2 = 2) := by
          simpa [widthsAccepted, hm, or_assoc] using hwidths
        simp only [if_neg hm]
        exact ⟨⟨widths.1, widths.2, hmode, selects.1, selects.2, min_le_left _ _, min_le_left _ _⟩,
          fun h => absurd h hm⟩
    · cases h
  · cases h

theorem effect_restartLane {i : Fin 4} {request : LaneRequest} {f : Lane → Lane} {s : State}
    (h : LaneStep i s.lanes[i] ((f s.lanes[i]).restart request s.pfe.levels)) :
    Effect s (restartLane i request f s) := by
  refine effect_setLanes fun j => ?_
  rw [modifyAt_get]
  split
  · next hij =>
    subst hij
    exact h
  · exact .refl j _

theorem reconfigureRequest_width {old new : LaneConfig} (h : new.w ≠ old.w) : reconfigureRequest old new = .retirement :=
  if_pos (.inr (.inl h.symm))

theorem effect_installConfig {i : Fin 4} {b : List Byte} {c : LaneConfig} (hc : parseLaneConfig b = some c) (s : State) :
    Effect s (installConfig i c s) := by
  obtain ⟨law, mgmt⟩ := parseLaneConfig_law hc
  refine effect_restartLane (laneStep_restart _ (fun _ => mgmt) ⟨rfl, rfl⟩ rfl (fun _ => law) ?_)
  by_cases hw : c.w = (s.lanes[i]).cfg.w
  · exact .inl hw
  · exact .inr (reconfigureRequest_width hw)

theorem effect_installEnable (i : Fin 4) (on : Bool) (s : State) : Effect s (installEnable i on s) :=
  effect_restartLane (laneStep_restart _ (fun ⟨_, _, _, _, _, _, hm⟩ => hm) ⟨rfl, rfl⟩ rfl id (.inl rfl))

theorem parsePower_range {ops : List Byte} {x : PowerSettings} (h : parsePower ops = some x) :
    x.dim ≤ 255 ∧ x.dark ≤ 255 ∧ x.sleep ≤ 255 := by
  unfold parsePower at h
  split at h
  · cases h
    exact ⟨min_le_left _ _, min_le_left _ _, min_le_left _ _⟩
  · cases h

theorem effect_powerSet {ops : List Byte} {s t : State} (h : powerSet ops s = some t) : Effect s t := by
  obtain ⟨x, hx, rfl⟩ := Option.map_eq_some_iff.1 h
  exact effect_setPwu rfl rfl rfl rfl fun _ => parsePower_range hx

theorem effect_attnEnable {ops : List Byte} {s t : State} (h : attnEnable ops s = some t) : Effect s t := by
  obtain ⟨m, -, rfl⟩ := Option.map_eq_some_iff.1 h
  exact effect_setWta rfl rfl

/-! ### Services -/

theorem effect_serveProbeSet (ops : List Byte) {s : State} (hr : s.inReset = false) :
    Effect s (serveProbeSet ops s).1 := by
  unfold serveProbeSet
  split
  · exact .refl s
  · exact effect_applyBanks _ hr

theorem effect_serveProbeRead (ops : List Byte) (s : State) : Effect s (serveProbeRead ops s).1 := by
  unfold serveProbeRead
  split
  · exact .refl s
  · exact .ite _ (fun _ => effect_setPfe_banks rfl) fun _ => .refl s

theorem law_noteFlags {i : Fin 4} {l : Lane} (h : l.Law i) : l.noteFlags.Law i := by
  obtain ⟨h1, h2, h3, h4, h5, -, h7⟩ := h
  exact ⟨h1, h2, h3, h4, h5, by simp [Lane.noteFlags], h7⟩

theorem law_deliverFlags {i : Fin 4} {l : Lane} (h : l.Law i) : l.deliverFlags.Law i := by
  obtain ⟨h1, h2, h3, h4, h5, -, h7⟩ := h
  exact ⟨h1, h2, h3, h4, h5, by simp [Lane.deliverFlags], h7⟩

theorem law_dropNotes {i : Fin 4} {l : Lane} (h : l.Law i) : l.dropNotes.Law i := by
  obtain ⟨h1, h2, h3, h4, h5, -, h7⟩ := h
  exact ⟨h1, h2, h3, h4, h5, by simp [Lane.dropNotes], h7⟩

theorem effect_modifyLane_notes {i : Fin 4} {f : Lane → Lane} {s : State} (hl : ∀ l, l.Law i → (f l).Law i)
    (hf : ∀ l, (f l).cfg = l.cfg ∧ (f l).request = l.request) : Effect s (modifyLane i f s) := by
  refine effect_setLanes fun j => ?_
  rw [modifyAt_get]
  split
  · next hij =>
    subst hij
    obtain ⟨hc, hr⟩ := hf s.lanes[i]
    exact { law := hl _, config := fun h => by rwa [hc], width := fun w h => by rwa [hc, hr] }
  · exact .refl j _

theorem effect_serveLaneStatus (ops : List Byte) (s : State) : Effect s (serveLaneStatus ops s).1 := by
  unfold serveLaneStatus
  split
  · exact .ite _ (fun _ => effect_modifyLane_notes (fun _ => law_noteFlags) fun _ => ⟨rfl, rfl⟩) fun _ => .refl s
  · exact .refl s

theorem effect_serveSeed (ops : List Byte) (s : State) : Effect s (serveSeed ops s).1 := by
  unfold serveSeed
  dsimp only
  split
  · exact .refl s
  · split
    · exact .refl s
    · split
      · exact .refl s
      · next habs =>
        have admitted := (Effect.refl s).admitKey (k := keyOf (bytesAt ops 0 4))
          (w := (s.lanes[(keyOf (bytesAt ops 0 4)).lane]).cfg.w) (by simpa using habs) fun _ => rfl
        split
        · next u hu => rwa [hu] at admitted
        · next u hu => rwa [hu] at admitted

theorem effect_serveAmend (ops : List Byte) (s : State) : Effect s (serveAmend ops s).1 := by
  unfold serveAmend
  dsimp only
  split
  · exact .refl s
  · split
    · exact .refl s
    · split
      · exact .refl s
      · next r hr => exact effect_amendRecord (by rwa [lookup_key hr])

theorem effect_serveRetire (ops : List Byte) (s : State) : Effect s (serveRetire ops s).1 := by
  unfold serveRetire
  split
  · exact .refl s
  · split
    · exact .refl s
    · next r hr => exact effect_retireRecord (lookup_mem hr)

theorem effect_serveClearTable (ops : List Byte) (s : State) : Effect s (serveClearTable ops s).1 := by
  unfold serveClearTable
  split
  · exact .refl s
  · split
    · exact .refl s
    · exact effect_retireAll fun r hr => (List.mem_filter.1 hr).1

theorem effect_serveHold (ops : List Byte) (s : State) : Effect s (serveHold ops s).1 := by
  unfold serveHold
  split
  · exact .refl s
  · exact effect_setHold _ s

theorem effect_serveWalk (ops : List Byte) (s : State) : Effect s (serveWalk ops s).1 := by
  unfold serveWalk
  split
  · exact .refl s
  · exact effect_setRte rfl rfl rfl rfl

theorem effect_serveWatchSet (ops : List Byte) (s : State) : Effect s (serveWatchSet ops s).1 := by
  unfold serveWatchSet
  split
  · exact .refl s
  · dsimp only
    split
    · exact .refl s
    · next hfree =>
      split
      · exact .refl s
      · next r hr =>
        split
        · exact .refl s
        · next hw => exact effect_watchSet (not_not.1 hfree) hr (by simpa using hw)

theorem effect_serveWatchFree (ops : List Byte) (s : State) : Effect s (serveWatchFree ops s).1 := by
  unfold serveWatchFree
  split
  · exact .refl s
  · exact effect_unbind _ s

theorem effect_serveTakeWatch (ops : List Byte) (s : State) : Effect s (serveTakeWatch ops s).1 := by
  unfold serveTakeWatch
  split
  · exact .refl s
  · split
    · exact effect_modifySlot Slot.boundKey_mark
    · exact effect_modifySlot Slot.boundKey_mark
    · exact .refl s
    · exact .refl s

theorem effect_serveTrapSet (ops : List Byte) (s : State) : Effect s (serveTrapSet ops s).1 := by
  unfold serveTrapSet
  split
  · exact effect_writeTrap _ _ s
  · exact .refl s

theorem effect_serveTrapRead (ops : List Byte) (s : State) : Effect s (serveTrapRead ops s).1 := by
  unfold serveTrapRead
  split
  · exact .ite _ (fun _ => effect_writeTrap _ _ s) fun _ => .refl s
  · exact .refl s

theorem effect_serveAcknowledge (ops : List Byte) (s : State) : Effect s (serveAcknowledge ops s).1 := by
  unfold serveAcknowledge
  split
  · exact .refl s
  · exact effect_acknowledge _ s

theorem effect_serveAttnEnable (ops : List Byte) (s : State) : Effect s (serveAttnEnable ops s).1 := by
  unfold serveAttnEnable
  split
  · exact .refl s
  · next h => exact effect_attnEnable h

theorem effect_serveViewSet (ops : List Byte) (s : State) : Effect s (serveViewSet ops s).1 := by
  unfold serveViewSet
  split
  · next h _ => exact effect_viewSet h
  · exact .refl s

theorem effect_servePowerSet (ops : List Byte) (s : State) : Effect s (servePowerSet ops s).1 := by
  unfold servePowerSet
  split
  · next h => exact effect_powerSet h
  · exact .refl s

theorem effect_servePowerStatus (ops : List Byte) (s : State) : Effect s (servePowerStatus ops s).1 := by
  unfold servePowerStatus
  split
  · exact .refl s
  · exact .ite _ (fun _ => effect_setPwu rfl rfl rfl rfl id) fun _ => .refl s

theorem effect_setOp (op : ProfileOp) (s : State) : Effect s (setOp op s) := effect_setPim id

theorem effect_serveProfileLoad (ops : List Byte) (s : State) : Effect s (serveProfileLoad ops s).1 := by
  unfold serveProfileLoad
  split
  · exact .refl s
  · split
    · exact .refl s
    · exact effect_setOp _ s

theorem effect_serveProfileStore (s : State) : Effect s (serveProfileStore s).1 := by
  unfold serveProfileStore
  split
  · exact .refl s
  · exact effect_setPim id

theorem effect_serveSleep (s : State) : Effect s (serveSleep s).1 := by
  unfold serveSleep
  split <;> exact .refl s

theorem effect_serveLookup (ops : List Byte) (s : State) : Effect s (serveLookup ops s).1 := by
  unfold serveLookup
  split <;> exact .refl s

/-- Every service keeps the laws and leaves the link (R175). -/
theorem effect_serve (c : Cmd) (ops : List Byte) {s : State} (hr : s.inReset = false) : Effect s (serve c ops s).1 := by
  cases c with
  | identify => exact .refl s
  | release => exact .refl s
  | status => exact .refl s
  | acknowledge => exact effect_serveAcknowledge ops s
  | attnEnable => exact effect_serveAttnEnable ops s
  | restart => exact .refl s
  | probeSet => exact effect_serveProbeSet ops hr
  | probeRead => exact effect_serveProbeRead ops s
  | laneSet => exact .refl s
  | laneEnable => exact .refl s
  | laneStatus => exact effect_serveLaneStatus ops s
  | lookup => exact effect_serveLookup ops s
  | walk => exact effect_serveWalk ops s
  | walkFrom => exact effect_setRte rfl rfl rfl rfl
  | seed => exact effect_serveSeed ops s
  | amend => exact effect_serveAmend ops s
  | retire => exact effect_serveRetire ops s
  | clearTable => exact effect_serveClearTable ops s
  | tableInfo => exact .refl s
  | hold => exact effect_serveHold ops s
  | watchSet => exact effect_serveWatchSet ops s
  | watchFree => exact effect_serveWatchFree ops s
  | takeWatch => exact effect_serveTakeWatch ops s
  | trapSet => exact effect_serveTrapSet ops s
  | trapRead => exact effect_serveTrapRead ops s
  | viewSet => exact effect_serveViewSet ops s
  | viewOptions => exact effect_viewOptions _ s
  | panelSet => exact effect_panelSet _ _ s
  | powerSet => exact effect_servePowerSet ops s
  | powerStatus => exact effect_servePowerStatus ops s
  | sleep => exact effect_serveSleep s
  | profileLoad => exact effect_serveProfileLoad ops s
  | profileStore => exact effect_serveProfileStore s
  | profileStatus => exact .refl s

/-! ### Delivery and loss -/

theorem effect_modifyTrap (i : Fin 4) (f : Trap → Trap) (s : State) : Effect s (modifyTrap i f s) := effect_setWta rfl rfl

/-- An effect on the unit an operand names, or none. -/
theorem Effect.elim {α : Type} {o : Option α} {f : α → State} {s : State} (h : ∀ a, Effect s (f a)) :
    Effect s (o.elim s f) := by
  cases o with
  | none => exact .refl s
  | some a => exact h a

/-- The loss of an answer keeps the laws and leaves the link (R178). -/
theorem effect_failDelivery (c : Cmd) (ops : List Byte) (s : State) : Effect s (failDelivery c ops s) := by
  cases c with
  | takeWatch => exact .elim fun _ => effect_modifySlot Slot.boundKey_lost
  | walk => exact effect_setRte rfl rfl rfl rfl
  | probeRead => exact effect_setPfe_banks rfl
  | laneStatus => exact .elim fun _ => effect_modifyLane_notes (fun _ => law_dropNotes) fun _ => ⟨rfl, rfl⟩
  | trapRead => exact .elim fun _ => effect_modifyTrap _ _ s
  | powerStatus => exact effect_setPwu rfl rfl rfl rfl id
  | _ => exact .refl s

/-- What a RELEASE answer leaves is the link's alone; every other delivery is an effect (R178, R180). -/
theorem effect_deliver {c : Cmd} (hc : c ≠ .release) (ops : List Byte) (s : State) : Effect s (deliver c ops s) := by
  cases c with
  | takeWatch => exact .elim fun _ => effect_modifySlot Slot.boundKey_delivered
  | walk => exact effect_setRte rfl rfl rfl rfl
  | probeRead => exact effect_setPfe_banks rfl
  | laneStatus => exact .elim fun _ => effect_modifyLane_notes (fun _ => law_deliverFlags) fun _ => ⟨rfl, rfl⟩
  | trapRead => exact .elim fun _ => effect_modifyTrap _ _ s
  | powerStatus => exact effect_setPwu rfl rfl rfl rfl id
  | release => exact absurd rfl hc
  | _ => exact .refl s

/-! ### The settings block and the seeds -/

theorem Effect.tryItem {f : State → Option State} {s : State} (h : ∀ t, f s = some t → Effect s t) :
    Effect s (tryItem f s) := by
  unfold Machine.tryItem
  cases hf : f s with
  | none => exact .refl s
  | some t => exact h t hf

theorem effect_settingsLane (block : List Byte) (i : Fin 4) (s : State) : Effect s (settingsLane block i s) := by
  unfold settingsLane
  refine .tryItem fun t ht => ?_
  obtain ⟨c, hc, rfl⟩ := Option.map_eq_some_iff.1 ht
  exact (effect_installConfig hc s).trans (effect_installEnable i _ _)

theorem effect_settingsTrap (block : List Byte) (i : Fin 4) (s : State) : Effect s (settingsTrap block i s) := by
  unfold settingsTrap
  refine .tryItem fun t ht => ?_
  obtain ⟨w, -, rfl⟩ := Option.map_eq_some_iff.1 ht
  exact effect_writeTrap i w s

theorem effect_settingsRow (block : List Byte) (i : Fin 16) (s : State) : Effect s (settingsRow block i s) :=
  .tryItem fun _ ht => effect_viewSet ht

theorem effect_applySettings (block : List Byte) {s : State} (hr : s.inReset = false) :
    Effect s (applySettings block s) := by
  have banks := effect_applyBanks [bankItem block 0, bankItem block 1] hr
  have lanes (t : State) := Effect.foldl (f := fun s i => settingsLane block i s)
    (fun s i => effect_settingsLane block i s) [0, 1, 2, 3] t
  have traps (t : State) := Effect.foldl (f := fun s i => settingsTrap block i s)
    (fun s i => effect_settingsTrap block i s) [0, 1, 2, 3] t
  have rows (t : State) := Effect.foldl (f := fun s i => settingsRow block i s)
    (fun s i => effect_settingsRow block i s) probeNumbers t
  have panel (t : State) : Effect t (settingsPanel block t) := (effect_viewOptions _ t).trans (effect_panelSet _ _ _)
  have power (t : State) : Effect t (settingsPower8 block t) :=
    Effect.trans (.tryItem fun _ h => effect_powerSet h) (.tryItem fun _ h => effect_attnEnable h)
  exact ((((banks.trans (lanes _)).trans (traps _)).trans (rows _)).trans (panel _)).trans (power _)

theorem effect_applySeed (x : SeedEntry) (earlier : List Key) (s : State) : Effect s (applySeed x earlier s).1 := by
  unfold applySeed
  split
  · next hp =>
    split
    · next r hr => exact effect_amendRecord (by rwa [lookup_key hr])
    · next hnone =>
      have width : x.width = (s.lanes[x.key.lane]).cfg.w := by
        simp only [SeedEntry.passes, Bool.and_eq_true, beq_iff_eq] at hp
        exact hp.1.1.2
      have admitted := (Effect.refl s).admitKey hnone fun _ => width
      have found := admitKey_accepted (w := x.width) hnone
      split
      · next u hu =>
        rw [hu] at admitted found
        exact admitted.trans (effect_amendRecord (found rfl))
      · next u hu => rwa [hu] at admitted
  · exact .refl s

/-! ### Profile operations -/

theorem effect_completeOp (last : LastOutcome) (s : State) : Effect s (completeOp last s) :=
  Effect.trans (t := s.setPim { s.pim with op := .none, last := some last }) (effect_setPim id)
    (effect_raise (c := .profile) nofun _)

theorem effect_completeStore (failed : Bool) {s : State} (hr : s.inReset = false) : Effect s (completeStore failed s) :=
  (effect_completeOp _ s).trans (effect_takeDeferred (.inl hr))

theorem Effect.atStage {stage : StoreStage} {f : State → State} {s : State} (h : Effect s (f s)) :
    Effect s (atStage stage f s) :=
  .ite _ (fun _ => h) fun _ => .refl s

theorem effect_stageDone (next : StoreStage) {f : Flash → Flash} (hf : ∀ m, m.wf = true → (f m).wf = true) (s : State) :
    Effect s (stageDone next f s) :=
  effect_setPim (hf _)

theorem effect_storeInvalidate (s : State) : Effect s (storeInvalidate s) :=
  .atStage (effect_stageDone _ (fun _ => Flash.wf_write 3 0x00) s)

theorem effect_storeErase (s : State) : Effect s (storeErase s) :=
  .atStage (effect_stageDone _ (fun _ => Flash.wf_eraseRange 4 _) s)

theorem effect_storeProgram (ds : List Host.Cell) (s : State) : Effect s (storeProgram ds s) :=
  .atStage (effect_stageDone _ (fun _ h => Flash.wf_withDefects _ ds (Flash.wf_programImage _ h)) s)

theorem effect_storeVerify {s : State} (hr : s.inReset = false) : Effect s (storeVerify s) :=
  .atStage (.ite _ (fun _ => effect_setOp _ s) fun _ => effect_completeStore _ hr)

theorem effect_storeCommit {s : State} (hr : s.inReset = false) : Effect s (storeCommit s) := by
  refine .atStage ?_
  have written : Effect s (s.setPim { s.pim with flash := s.pim.flash.write 3 0xA8 }) := 
    effect_setPim fun h => Flash.wf_write 3 0xA8 h
  exact written.trans (effect_completeStore _ hr)

end Sys2Proof.Machine
end

section
/-! SUPPORT. What a full reset and its release keep, and the walk of the laws through the Control Link: service, answers,
taking and the ends of a transaction (chapter 10). -/

namespace Sys2Proof.Machine

/-! ### The reset values meet the laws -/

theorem lane_reset_law (i : Fin 4) : Lane.reset.Law i :=
  ⟨by decide, fun _ => rfl, Nat.zero_le _, fun _ => rfl, nofun, rfl, nofun⟩

theorem lanes_reset_get (i : Fin 4) : (Vector.replicate 4 Lane.reset)[i] = Lane.reset := by simp

theorem bindingLaw_of_reset {s : State} (ht : s.rte.table = []) (hs : s.wta.slots = Vector.replicate 8 .free) :
    BindingLaw s := by
  rw [BindingLaw, ht, hs]
  refine ⟨fun i k hk => ?_, fun _ h => absurd h List.not_mem_nil⟩
  simp [Slot.boundKey] at hk

theorem lanesLaw_of_reset {s : State} (h : s.lanes = Vector.replicate 4 Lane.reset) : LanesLaw s := by
  intro i
  rw [h, lanes_reset_get]
  exact lane_reset_law i

theorem widthLaw_of_empty {s : State} (h : s.rte.table = []) : WidthLaw s := by
  rw [WidthLaw, h]
  exact fun _ h => absurd h List.not_mem_nil

theorem settingsLaw_of_reset {s : State} (hl : s.lanes = Vector.replicate 4 Lane.reset) {pins : Vector Nat 16}
    (hp : s.pfe = Pfe.reset pins) (hw : s.pwu.dim ≤ 255 ∧ s.pwu.dark ≤ 255 ∧ s.pwu.sleep ≤ 255) (hd : s.dse = Dse.reset) :
    SettingsLaw s := by
  obtain ⟨h1, h2, h3⟩ := hw
  refine ⟨fun i => ?_, fun b => ?_, h1, h2, h3, ?_⟩
  · rw [hl, lanes_reset_get]
    decide
  · rw [hp]
    simp [Pfe.reset]
  · rw [hd]
    decide

/-! ### Full reset -/

/-- The link has no transaction open, presents nothing, and keeps no command that has one (R173, R177, R185). -/
def Ctl.Shut (c : Ctl) : Prop :=
  c.phase = .closed ∧ c.cell = none ∧ (∀ w ∈ c.waiting, w.cut = true) ∧ ∀ d ∈ c.deferred, d.cut = true

theorem linkLaw_iff {s : State} : LinkLaw s ↔ (s.inReset = true ∨ s.ctl.lselLow = false → s.ctl.Shut) := Iff.rfl

theorem Ctl.shut_reset (cause : ResetCause) (low : Bool) : (Ctl.reset cause low).Shut := ⟨rfl, rfl, nofun, nofun⟩

theorem fullReset_running {cause : ResetCause} {s : State} (hr : s.inReset = false) :
    fullReset cause s = { pfe := Pfe.reset s.pfe.pins, lanes := Vector.replicate 4 Lane.reset, rte := Rte.reset false
                          wta := Wta.reset, dse := Dse.reset, pwu := Pwu.reset s.pwu.keyLow none none
                          ctl := Ctl.reset cause s.ctl.lselLow, pim := Pim.reset .none s.pim.flash, inReset := true
                          pending := s.pending } :=
  if_neg (by rw [hr]; nofun)

theorem keeps_fullReset (cause : ResetCause) (s : State) : Keeps s (fullReset cause s) := by
  by_cases hr : s.inReset = true
  · rw [fullReset, if_pos hr]
    exact .refl s
  · rw [fullReset_running (by simpa using hr)]
    exact
      { table := fun _ => ⟨Nat.zero_le _, .nil⟩
        binding := fun _ _ => bindingLaw_of_reset rfl rfl
        records := fun _ => ⟨Nat.zero_le _, fun _ h => absurd h List.not_mem_nil⟩
        capture := fun _ => by
          show false = (Wta.reset.causes &&& Cause.admission.bit != 0)
          decide
        lanes := fun _ => lanesLaw_of_reset rfl
        widths := fun _ _ _ => widthLaw_of_empty rfl
        power := fun _ _ => ⟨⟨nofun, nofun, nofun, nofun, fun _ => ⟨rfl, rfl, rfl, rfl⟩⟩, rfl, nofun, nofun⟩
        settings := fun _ => settingsLaw_of_reset rfl rfl ⟨Nat.le_of_ble_eq_true rfl, Nat.le_of_ble_eq_true rfl, Nat.le_of_ble_eq_true rfl⟩ rfl
        flash := id }

theorem linkLaw_fullReset {s : State} (cause : ResetCause) (h : LinkLaw s) : LinkLaw (fullReset cause s) := by
  by_cases hr : s.inReset = true
  · rwa [fullReset, if_pos hr]
  · rw [fullReset_running (by simpa using hr)]
    exact fun _ => Ctl.shut_reset _ _

/-- The release of the reset starts the timers of a part in RUN (R171). -/
theorem keeps_resetRelease (s : State) : Keeps s (resetRelease s) := by
  unfold resetRelease
  split
  · next hr =>
    have live : Keeps s { s with inReset := false } :=
      { power := fun ⟨h1, h2, h3, h4, _⟩ hd => ⟨⟨h1, h2, h3, h4, nofun⟩, hd⟩ }
    have probes : Effect { s with inReset := false } (releaseProbes { s with inReset := false }) := by
      refine effect_setPfe_banks ?_
      rw [Pfe.filterWhere_banks]
    have timers : Keeps s (releaseTimers (releaseProbes { s with inReset := false })) :=
      { live.trans probes.toKeeps with
        power := by
          rintro ⟨-, -, -, -, hheld⟩ hpan
          obtain ⟨hrun, hop, -, hdef⟩ := hheld hr
          refine ⟨⟨fun h => absurd (hop.symm.trans h) nofun, fun h => absurd (hop.symm.trans h) nofun,
            fun h => absurd (hdef.symm.trans h) nofun, fun t n ht => ⟨hop, .inl ⟨startTimer_some ht, hrun⟩⟩, nofun⟩, hpan⟩ }
    exact timers.trans (effect_setOp _ _).toKeeps
  · exact .refl s

/-! ### Moves of the running part -/

/-- What a move of the running part keeps: every law of the blocks, the level of LSEL, and, when every command it takes up is
cut, the closed link. A move that ends in a full reset leaves nothing waiting. -/
structure Runs (cut : Prop) (s t : State) : Prop extends Keeps s t where
  lsel : t.ctl.lselLow = s.ctl.lselLow
  shut : s.ctl.Shut → cut → t.ctl.Shut
  held : t.inReset = true → t.ctl.Shut ∧ t.ctl.waiting = [] ∧ t.pwu.deferred = false

theorem Effect.runs {cut : Prop} {s t : State} (h : Effect s t) (hr : s.inReset = false) : Runs cut s t where
  toKeeps := h.toKeeps
  lsel := by rw [h.ctl]
  shut hs _ := by rwa [h.ctl]
  held hh := by
    rw [h.inReset, hr] at hh
    cases hh

theorem Runs.refl (cut : Prop) {s : State} (hr : s.inReset = false) : Runs cut s s := (Effect.refl s).runs hr

theorem Runs.mono {p q : Prop} {s t : State} (h : Runs p s t) (hpq : s.ctl.Shut → q → p) : Runs q s t :=
  { h with shut := fun hs hq => h.shut hs (hpq hs hq) }

theorem Runs.trans {p : Prop} {s t u : State} (h : Runs p s t) (g : Runs p t u) : Runs p s u where
  toKeeps := h.toKeeps.trans g.toKeeps
  lsel := g.lsel.trans h.lsel
  shut hs hp := g.shut (h.shut hs hp) hp
  held := g.held

/-- A move of the link alone. -/
theorem runs_setCtl {cut : Prop} {c : Ctl} {s : State} (hr : s.inReset = false) (hl : c.lselLow = s.ctl.lselLow)
    (hs : s.ctl.Shut → cut → c.Shut) : Runs cut s (s.setCtl c) where
  toKeeps := keeps_setCtl c s
  lsel := hl
  shut := hs
  held h := by
    rw [State.setCtl_inReset, hr] at h
    cases h

theorem runs_fullReset {cut : Prop} (cause : ResetCause) {s : State} (hr : s.inReset = false) :
    Runs cut s (fullReset cause s) where
  toKeeps := keeps_fullReset cause s
  lsel := by
    rw [fullReset_running hr]
    rfl
  shut _ _ := by
    rw [fullReset_running hr]
    exact Ctl.shut_reset _ _
  held _ := by
    rw [fullReset_running hr]
    exact ⟨Ctl.shut_reset _ _, rfl, rfl⟩

/-- A move keeps the law of the link, when LSEL is low or every command it takes up is cut (R173, R177, R185). -/
theorem Runs.linkLaw {cut : Prop} {s t : State} (h : Runs cut s t) (hc : s.ctl.lselLow = false → cut)
    (hs : LinkLaw s) : LinkLaw t := by
  rw [linkLaw_iff] at hs ⊢
  rintro (ht | ht)
  · exact (h.held ht).1
  · have high : s.ctl.lselLow = false := h.lsel.symm.trans ht
    exact h.shut (hs (.inr high)) (hc high)

/-! ### Service and answers -/

theorem runs_sendAnswer (c : Option Cmd) (a : Answer) {s : State} (hr : s.inReset = false) :
    Runs False s (sendAnswer c a s) :=
  runs_setCtl hr rfl fun _ => False.elim

theorem afterCut_other {c : Cmd} (h : c ≠ .restart) (g : c ≠ .sleep) (ops : List Byte) (s : State) :
    afterCut c ops s = failDelivery c ops s := by
  cases c with
  | restart => exact absurd rfl h
  | sleep => exact absurd rfl g
  | _ => rfl

theorem runs_afterCut {cut : Prop} (c : Cmd) (ops : List Byte) {s : State} (hr : s.inReset = false) :
    Runs cut s (afterCut c ops s) := by
  by_cases h : c = .restart
  · subst h
    exact runs_fullReset _ hr
  · by_cases g : c = .sleep
    · subst g
      exact (effect_beginSleepEntry hr).runs hr
    · rw [afterCut_other h g]
      exact (effect_failDelivery c ops s).runs hr

theorem runs_respond (c : Cmd) (ops : List Byte) (cut : Bool) (a : Answer) {s : State} (hr : s.inReset = false) :
    Runs (cut = true) s (respond c ops cut a s) := by
  unfold respond
  cases cut with
  | false => exact (runs_sendAnswer (some c) a hr).mono fun _ => nofun
  | true =>
    rw [if_pos rfl]
    split
    · exact runs_afterCut c ops hr
    · exact .refl _ hr

theorem runs_refuseCommand (cut : Bool) (st : Status) {s : State} (hr : s.inReset = false) :
    Runs (cut = true) s (refuseCommand cut st s) := by
  unfold refuseCommand
  cases cut with
  | false => exact (runs_sendAnswer none _ hr).mono fun _ => nofun
  | true => exact .refl _ hr

theorem runs_dequeue {cut : Prop} (w : Waiting) {s : State} (hr : s.inReset = false) : Runs cut s (dequeue w s) :=
  runs_setCtl hr rfl fun ⟨hp, hc, hw, hd⟩ _ => ⟨hp, hc, fun x hx => hw x (List.mem_of_mem_erase hx), hd⟩

theorem runs_enqueue (w : Waiting) {s : State} (hr : s.inReset = false) : Runs (w.cut = true) s (enqueue w s) := by
  refine runs_setCtl hr rfl fun ⟨hp, hc, hw, hd⟩ hcut => ⟨?_, hc, fun x hx => ?_, hd⟩
  · rw [hcut]
    exact hp
  · rcases List.mem_append.1 hx with hx | hx
    · exact hw x hx
    · rw [List.mem_singleton.1 hx]
      exact hcut

theorem runs_serveWaiting (w : Waiting) {s : State} (hr : s.inReset = false) :
    Runs (w.cut = true) s (serveWaiting w s) := by
  have taken := runs_dequeue (cut := w.cut = true) w hr
  have served := effect_serve w.cmd w.operands (s := dequeue w s) (by exact hr)
  have running : (serve w.cmd w.operands (dequeue w s)).1.inReset = false := served.inReset.trans hr
  exact (taken.trans (served.runs (by exact hr))).trans (runs_respond _ _ _ _ running)

/-- Only RESTART ends in a full reset. -/
theorem serveWaiting_running {w : Waiting} {s : State} (hc : w.cmd ≠ .restart) (hr : s.inReset = false) :
    (serveWaiting w s).inReset = false := by
  have running : (serve w.cmd w.operands (dequeue w s)).1.inReset = false :=
    (effect_serve w.cmd w.operands (s := dequeue w s) (by exact hr)).inReset.trans hr
  have cut (t : State) (ht : t.inReset = false) : (afterCut w.cmd w.operands t).inReset = false := by
    by_cases g : w.cmd = .sleep
    · rw [g]
      exact (effect_beginSleepEntry ht).inReset.trans ht
    · rw [afterCut_other hc g]
      exact (effect_failDelivery _ w.operands t).inReset.trans ht
  unfold serveWaiting respond
  dsimp only
  split
  · split
    · exact cut _ running
    · exact running
  · exact running

theorem firstWaiting_mem {o : Owner} {s : State} {w : Waiting} (h : firstWaiting o s = some w) : w ∈ s.ctl.waiting :=
  List.mem_of_find?_eq_some h

theorem advance_idle {o : Owner} (n : Nat) {s : State} (h : s.ctl.waiting = []) : advance o n s = s :=
  advance_none n (by rw [h]; nofun)

/-- The commands an owner takes up are those that waited: with the link closed, cut ones (R177). -/
theorem runs_advance (o : Owner) (n : Nat) {s : State} (hr : s.inReset = false) : Runs True s (advance o n s) := by
  induction n generalizing s with
  | zero => exact .refl _ hr
  | succ n ih =>
    unfold advance
    split
    · exact .refl _ hr
    · next w hw =>
      split
      · have served : Runs True s (serveWaiting w s) :=
          (runs_serveWaiting w hr).mono fun ⟨_, _, hcut, _⟩ _ => hcut w (firstWaiting_mem hw)
        cases ht : (serveWaiting w s).inReset with
        | false => exact served.trans (ih ht)
        | true =>
          rw [advance_idle n (served.held ht).2.1]
          exact served
      · exact .refl _ hr

theorem runs_advanceAll (o : Owner) {s : State} (hr : s.inReset = false) : Runs True s (advanceAll o s) :=
  runs_advance o _ hr

theorem advance_running {o : Owner} (ho : o ≠ .ctl) (n : Nat) {s : State} (hr : s.inReset = false) :
    (advance o n s).inReset = false := by
  induction n generalizing s with
  | zero => exact hr
  | succ n ih =>
    unfold advance
    split
    · exact hr
    · next w hw =>
      split
      · refine ih (serveWaiting_running ?_ hr)
        intro hc
        have owner := firstWaiting_owner hw
        rw [hc] at owner
        exact ho owner.symm
      · exact hr

theorem runs_toOwner (c : Cmd) (ops : List Byte) (cut : Bool) {s : State} (hr : s.inReset = false) :
    Runs (cut = true) s (toOwner c ops cut s) :=
  (runs_enqueue ⟨c, ops, cut⟩ hr).trans ((runs_advanceAll _ (by exact hr)).mono fun _ _ => trivial)

/-! ### Taking -/

theorem effect_takingActivity {s : State} (hr : s.inReset = false) : Effect s (takingActivity s) :=
  effect_activityIf hr _

theorem effect_takeLaneSet {ops : List Byte} {s t : State} (h : takeLaneSet ops s = .ok t) : Effect s t := by
  unfold takeLaneSet at h
  split at h
  · cases h
  · split at h
    · next i c _ hc =>
      cases h
      exact effect_installConfig hc s
    · cases h

theorem effect_takeLaneEnable {ops : List Byte} {s t : State} (h : takeLaneEnable ops s = .ok t) : Effect s t := by
  unfold takeLaneEnable at h
  split at h
  · cases h
  · split at h
    · cases h
      exact effect_installEnable _ _ s
    · cases h

theorem runs_toLane (c : Cmd) (ops : List Byte) (cut : Bool) {r : Except Status State} {s : State}
    (hr : s.inReset = false) (h : ∀ t, r = .ok t → Effect s t) : Runs (cut = true) s (toLane c ops cut r s) := by
  unfold toLane
  cases r with
  | error st => exact runs_refuseCommand cut st hr
  | ok t =>
    have effect := h t rfl
    exact (effect.runs hr).trans (runs_enqueue ⟨c, ops, cut⟩ (effect.inReset.trans hr))

theorem runs_handOver (c : Cmd) (ops : List Byte) (cut : Bool) {s : State} (hr : s.inReset = false) :
    Runs (cut = true) s (handOver c ops cut s) := by
  have active := effect_takingActivity hr
  have running := active.inReset.trans hr
  have first : Runs (cut = true) s (takingActivity s) := active.runs hr
  cases c with
  | laneSet => exact first.trans (runs_toLane _ _ _ running fun _ => effect_takeLaneSet)
  | laneEnable => exact first.trans (runs_toLane _ _ _ running fun _ => effect_takeLaneEnable)
  | powerSet =>
    have after : (toOwner .powerSet ops cut s).inReset = false := advance_running (o := .pwu) nofun _ (by exact hr)
    exact (runs_toOwner _ _ _ hr).trans ((effect_takingActivity after).runs after)
  | _ => exact first.trans (runs_toOwner _ _ _ running)

theorem runs_judge (byte : Byte) (f : Frame) (cut : Bool) {s : State} (hr : s.inReset = false) :
    Runs (cut = true) s (judge byte f cut s) := by
  have aborted := effect_abortSleepEntry s
  have running := aborted.inReset.trans hr
  have active := effect_takingActivity running
  unfold judge
  dsimp only
  refine Runs.trans (aborted.runs hr) ?_
  split
  · exact (active.runs running).trans (runs_refuseCommand cut _ (active.inReset.trans running))
  · exact runs_handOver _ _ _ running

/-- A command is taken in an open transaction. -/
theorem runs_take (byte : Byte) (f : Frame) {s : State} (hr : s.inReset = false) : Runs False s (take byte f s) := by
  unfold take
  dsimp only
  split
  · exact runs_setCtl (c := { s.ctl with
      txn := Txn.ofFrame byte f, cell := some (Cell.complete 0xFF false)
      deferred := s.ctl.deferred ++ [⟨byte, f, false⟩], phase := .waiting }) hr rfl fun _ => False.elim
  · have recorded := runs_setCtl (cut := False)
      (c := { s.ctl with txn := Txn.ofFrame byte f, cell := some (Cell.complete 0xFF false) }) hr rfl fun _ => False.elim
    exact recorded.trans ((runs_judge byte f false (by exact hr)).mono fun _ => False.elim)

theorem runs_commandTaken (byte : Byte) (f : Frame) {s : State} (hr : s.inReset = false) :
    Runs (s.ctl.lselLow = false) s (commandTaken byte f s) := by
  unfold commandTaken
  split
  · next h =>
    obtain ⟨hlow, -⟩ := h
    exact (runs_take byte f hr).mono fun _ high => absurd (hlow.symm.trans high) nofun
  · exact .refl _ hr

/-- The commands taken while wake was in flight; with the link closed they are cut (R167). -/
theorem runs_takeDeferredCommands {s : State} (hr : s.inReset = false) : Runs True s (takeDeferredCommands s) := by
  have walk (ds : List Deferred) (t : State) (ht : t.inReset = false) :
      Runs (∀ d ∈ ds, d.cut = true) t
        (ds.foldl (fun s d => if s.inReset then s else judge d.command d.frame d.cut s) t) := by
    induction ds generalizing t with
    | nil => exact .refl _ ht
    | cons d ds ih =>
      rw [List.foldl_cons, if_neg (by rw [ht]; nofun)]
      have judged : Runs (∀ x ∈ d :: ds, x.cut = true) t (judge d.command d.frame d.cut t) :=
        (runs_judge d.command d.frame d.cut ht).mono fun _ h => h d List.mem_cons_self
      cases hj : (judge d.command d.frame d.cut t).inReset with
      | false => exact judged.trans ((ih _ hj).mono fun _ h x hx => h x (List.mem_cons_of_mem d hx))
      | true =>
        have stays (es : List Deferred) (u : State) (hu : u.inReset = true) :
            es.foldl (fun s d => if s.inReset then s else judge d.command d.frame d.cut s) u = u := by
          induction es with
          | nil => rfl
          | cons e es ihe => rw [List.foldl_cons, if_pos hu, ihe]
        rw [stays ds _ hj]
        exact judged
  have cleared : Runs (∀ d ∈ s.ctl.deferred, d.cut = true) s (s.setCtl { s.ctl with deferred := [] }) :=
    runs_setCtl hr rfl fun ⟨hp, hc, hw, _⟩ _ => ⟨hp, hc, hw, nofun⟩
  exact (cleared.trans (walk s.ctl.deferred _ (by exact hr))).mono fun ⟨_, _, _, hd⟩ _ => hd

/-! ### Service in turn -/

theorem runs_serveNext {w : Waiting} {s : State} (hw : w ∈ s.ctl.waiting) (hr : s.inReset = false) :
    Runs True s (serveNext w s) := by
  have served : Runs True s (serveWaiting w s) := (runs_serveWaiting w hr).mono fun ⟨_, _, hcut, _⟩ _ => hcut w hw
  unfold serveNext advanceAll
  cases ht : (serveWaiting w s).inReset with
  | false => exact served.trans (runs_advance _ _ ht)
  | true =>
    rw [advance_idle _ (served.held ht).2.1]
    exact served

theorem Runs.effect {cut : Prop} {s t u : State} (h : Runs cut s t) (g : Effect t u) (hd : u.pwu.deferred = t.pwu.deferred) :
    Runs cut s u where
  toKeeps := h.toKeeps.trans g.toKeeps
  lsel := by rw [g.ctl, h.lsel]
  shut hs hc := by
    rw [g.ctl]
    exact h.shut hs hc
  held hh := by
    rw [g.inReset] at hh
    rw [g.ctl, hd]
    exact h.held hh

theorem Runs.unitAt {p : Position} {f : State → State} {s : State} (h : Runs True s (f s)) (hr : s.inReset = false) :
    Runs True s (unitAt p f s) := by
  unfold Machine.unitAt
  split
  · exact h.effect (finishUnit_effect p _) rfl
  · exact .refl _ hr

theorem nextServed_mem {c : Cmd} {f : Frame} {s : State} {w : Waiting} (h : nextServed c f s = some w) :
    w ∈ s.ctl.waiting :=
  firstWaiting_mem (Option.filter_eq_some_iff.1 h).1

theorem runs_commandServed (c : Cmd) (f : Frame) {s : State} (hr : s.inReset = false) :
    Runs True s (commandServed c f s) := by
  unfold commandServed
  split
  · exact .refl _ hr
  · next w hw =>
    have served := runs_serveNext (nextServed_mem hw) hr
    split
    · exact .refl _ hr
    · split
      · exact served.unitAt hr
      · exact served

/-- Each LANE-SET and LANE-ENABLE that waits for its lane is answered (R31). -/
theorem runs_answerLane (i : Fin 4) {s : State} (hr : s.inReset = false) : Runs True s (answerLane i s) := by
  have walk (ws : List Waiting) (t : State) (ht : t.inReset = false) (hc : ∀ w ∈ ws, w.cmd ≠ .restart) :
      Runs (∀ w ∈ ws, w.cut = true) t (ws.foldl (fun s w => serveWaiting w s) t) := by
    induction ws generalizing t with
    | nil => exact .refl _ ht
    | cons w ws ih =>
      have rest := ih (serveWaiting w t) (serveWaiting_running (hc w List.mem_cons_self) ht)
        fun x hx => hc x (List.mem_cons_of_mem w hx)
      exact ((runs_serveWaiting w ht).mono fun _ h => h w List.mem_cons_self).trans
        (rest.mono fun _ h x hx => h x (List.mem_cons_of_mem w hx))
  refine (walk _ s hr fun w hw hc => ?_).mono fun ⟨_, _, hcut, _⟩ _ w hw => hcut w (List.mem_filter.1 hw).1
  have awaits := (List.mem_filter.1 hw).2
  rw [Waiting.awaitsLane, hc] at awaits
  simp at awaits

theorem runs_serveRequest {kind : LaneRequest} {i : Fin 4} {f : State → State} {s : State} (hr : s.inReset = false)
    (h : (s.lanes[i]).request = some kind → Effect s (clearRequest i (f s))) :
    Runs True s (serveRequest kind i f s) := by
  unfold serveRequest
  split
  · next hreq =>
    have cleared := h hreq
    exact ((cleared.runs hr).trans (runs_answerLane i (cleared.inReset.trans hr))).unitAt hr
  · exact .refl _ hr

theorem runs_marking (i : Fin 4) {s : State} (hr : s.inReset = false) : Runs True s (serveRequest .marking i (markLane i) s) :=
  runs_serveRequest hr fun h => (effect_markLane i s).trans (effect_clearMarking h)

theorem effect_retireLane (i : Fin 4) (s : State) : Effect s (retireLane i s) :=
  effect_retireAll fun _ hr => (List.mem_filter.1 hr).1

theorem runs_retirement (i : Fin 4) {s : State} (hr : s.inReset = false) :
    Runs True s (serveRequest .retirement i (retireLane i) s) :=
  runs_serveRequest hr fun _ => (effect_retireLane i s).trans (effect_clearRetirement (retireLane_gone i s))

/-! ### Loads -/

theorem effect_panelAfterStartUp (s : State) : Effect s (panelAfterStartUp s) :=
  .ite _ (fun h => effect_panelTurnOn h) fun _ => .refl s

theorem panelAfterStartUp_pwu (s : State) : (panelAfterStartUp s).pwu = s.pwu := by
  unfold panelAfterStartUp
  split
  · obtain ⟨d, hd⟩ := panelTurnOn_dse s
    rw [hd]
    rfl
  · rfl

/-- A deferred expiry is taken, which a full reset has cleared (R159, R181). -/
theorem Runs.takeDeferred {cut : Prop} {s t : State} (h : Runs cut s t) : Runs cut s (takeDeferred t) := by
  cases ht : t.inReset with
  | false => exact h.trans ((effect_takeDeferred (.inl ht)).runs ht)
  | true =>
    rw [Machine.takeDeferred, if_neg (by rw [(h.held ht).2.2]; nofun)]
    exact h

theorem runs_completeLoad (l : Load) (v : Validity) {s : State} (hr : s.inReset = false) :
    Runs True s (completeLoad l v s) := by
  unfold completeLoad
  dsimp only
  split
  · have record : Runs True s (setResetRecord v l.loaded l.skipped s) := runs_setCtl hr rfl fun h _ => h
    have done := record.trans ((effect_completeOp (.load l.scope v l.loaded l.skipped) _).runs (by exact hr))
    have advanced := done.trans (runs_advanceAll .ctl (by exact hr))
    exact (advanced.effect (effect_panelAfterStartUp _) (by rw [panelAfterStartUp_pwu])).takeDeferred
  · exact ((effect_completeOp _ s).runs hr).takeDeferred
  · exact ((effect_completeOp _ s).runs hr).takeDeferred

theorem runs_seedsNext (l : Load) {s : State} (hr : s.inReset = false) : Runs True s (seedsNext l s) := by
  unfold seedsNext
  split
  · exact (effect_setOp _ s).runs hr
  · exact runs_completeLoad l _ hr

theorem runs_imageJudged {s : State} (hr : s.inReset = false) : Runs True s (imageJudged s) := by
  unfold imageJudged
  split
  · exact .refl _ hr
  · split
    · dsimp only
      split
      · exact runs_completeLoad _ _ hr
      · split
        · exact runs_seedsNext _ hr
        · exact (effect_setOp _ s).runs hr
    · exact .refl _ hr

theorem runs_settingsServed {s : State} (hr : s.inReset = false) : Runs True s (settingsServed s) := by
  unfold settingsServed
  split
  · exact .refl _ hr
  · split
    · have applied := effect_applySettings s.pim.flash.settings hr
      exact ((applied.runs hr).trans (runs_seedsNext _ (applied.inReset.trans hr))).unitAt hr
    · exact .refl _ hr

theorem runs_seedServed {s : State} (hr : s.inReset = false) : Runs True s (seedServed s) := by
  unfold seedServed
  split
  · exact .refl _ hr
  · next l _ =>
    split
    · have applied := effect_applySeed (parseSeed (s.pim.flash.seed l.next)) l.keys s
      exact ((applied.runs hr).trans (runs_seedsNext _ (applied.inReset.trans hr))).unitAt hr
    · exact .refl _ hr

theorem runs_wakeCompletes {s : State} (hr : s.inReset = false) : Runs True s (wakeCompletes s) := by
  unfold wakeCompletes
  split
  · next h =>
    have woken := effect_wakeSteps h
    exact (woken.runs hr).trans (runs_takeDeferredCommands (woken.inReset.trans hr))
  · exact .refl _ hr

/-! ### Byte cells and the ends of a transaction -/

theorem runs_deliver (c : Cmd) (ops : List Byte) {s : State} (hr : s.inReset = false) :
    Runs True s (deliver c ops s) := by
  by_cases hc : c = .release
  · subst hc
    exact runs_setCtl hr rfl fun h _ => h
  · exact (effect_deliver hc ops s).runs hr

theorem runs_completeAnswer {s : State} (hr : s.inReset = false) : Runs False s (completeAnswer s) := by
  unfold completeAnswer
  dsimp only
  refine Runs.trans (runs_setCtl (c := { s.ctl with
    phase := .trailer, cell := some (Cell.complete (s.ctl.txn.answer.getLastD 0xFF) true)
    txn := { s.ctl.txn with sent := s.ctl.txn.answer.length } }) hr rfl fun _ => False.elim) ?_
  cases s.ctl.txn.answered with
  | none => exact .refl _ hr
  | some c => exact (runs_deliver c _ (by exact hr)).mono fun _ => False.elim

theorem runs_cellCompletes (b : Byte) (c : Cell) {s : State} (hr : s.inReset = false) :
    Runs False s (cellCompletes b c s) := by
  unfold cellCompletes
  dsimp only
  have setCtl (x : Ctl) (t : State) (ht : t.inReset = false) (h : x.lselLow = t.ctl.lselLow) : Runs False t (t.setCtl x) :=
    runs_setCtl ht h fun _ => False.elim
  refine Runs.trans (setCtl { s.ctl with cell := some (Cell.complete c.out c.answers) } s hr rfl) ?_
  split
  · exact .refl _ hr
  · exact .refl _ hr
  · exact .refl _ hr
  · exact setCtl _ _ hr rfl
  · split
    · exact runs_take _ _ hr
    · exact setCtl _ _ hr rfl
  · split
    · exact setCtl _ _ hr rfl
    · exact runs_take _ _ hr
  · split
    · unfold answerByteSent
      split
      · exact setCtl _ _ hr rfl
      · exact runs_completeAnswer hr
    · exact .refl _ hr

theorem runs_byteCell (p : CellPart) {s : State} (hr : s.inReset = false) :
    Runs (s.ctl.lselLow = false) s (byteCell p s) := by
  unfold byteCell
  split
  · next hlow =>
    have opened {t : State} (h : Runs False s t) : Runs (s.ctl.lselLow = false) s t :=
      h.mono fun _ high => absurd (hlow.symm.trans high) nofun
    cases p with
    | whole b =>
      show Runs _ s (wholeCell b s)
      unfold wholeCell
      split
      · exact .refl _ hr
      · split
        · exact opened (runs_cellCompletes b _ hr)
        · exact .refl _ hr
    | rise ldi =>
      show Runs _ s (clockRises ldi s)
      unfold clockRises
      split
      · exact .refl _ hr
      · split
        · exact .refl _ hr
        · split
          · exact opened (runs_setCtl hr rfl fun _ => False.elim)
          · exact opened (runs_cellCompletes _ _ hr)
    | fall => exact opened (runs_setCtl hr rfl fun _ => False.elim)
  · exact .refl _ hr

theorem runs_clockOutAnswer {s : State} (hr : s.inReset = false) :
    Runs (s.ctl.lselLow = false) s (clockOutAnswer s) := by
  unfold clockOutAnswer
  split
  · next h =>
    obtain ⟨hlow, -⟩ := h
    exact (runs_completeAnswer hr).mono fun _ high => absurd (hlow.symm.trans high) nofun
  · exact .refl _ hr

theorem keeps_lselFalls {s : State} (hr : s.inReset = false) :
    Keeps s (lselFalls s) ∧ (lselFalls s).ctl.lselLow = true ∧ (lselFalls s).inReset = false := by
  unfold lselFalls
  split
  · next h => exact ⟨.refl s, h, hr⟩
  · set opened := s.setCtl { s.ctl with lselLow := true, phase := .command, txn := Txn.empty, cell := some Cell.first }
    have woken := (effect_abortSleepEntry opened).trans (effect_wakeEvent .lsel _)
    exact ⟨(keeps_setCtl _ s).trans woken.toKeeps, by rw [woken.ctl]; rfl, woken.inReset.trans hr⟩

/-- The end of a transaction shuts the link (R173, R177). -/
theorem shut_closeTransaction (s : State) : (closeTransaction s).ctl.Shut := by
  refine ⟨rfl, rfl, fun w hw => ?_, fun d hd => ?_⟩
  · obtain ⟨x, -, rfl⟩ := List.mem_map.1 hw
    rfl
  · obtain ⟨x, -, rfl⟩ := List.mem_map.1 hd
    rfl

theorem effect_loseAnswer (t : Txn) (ph : Phase) (s : State) : Effect s (loseAnswer t ph s) :=
  .ite _ (fun _ => .elim fun c => effect_failDelivery c _ s) fun _ => .refl s

theorem runs_afterRise {cut : Prop} (t : Txn) {s : State} (hr : s.inReset = false) : Runs cut s (afterRise t s) := by
  unfold afterRise
  split
  · exact runs_fullReset _ hr
  · split
    · exact (effect_beginSleepEntry hr).runs hr
    · exact .refl _ hr

theorem keeps_lselRises {s : State} (hr : s.inReset = false) :
    Keeps s (lselRises s) ∧ (LinkLaw s → LinkLaw (lselRises s)) := by
  unfold lselRises
  split
  · have lost := effect_loseAnswer s.ctl.txn s.ctl.phase (closeTransaction s)
    have ended : Runs True (closeTransaction s) (afterRise s.ctl.txn (loseAnswer s.ctl.txn s.ctl.phase (closeTransaction s))) :=
      (lost.runs (by exact hr)).trans (runs_afterRise _ (lost.inReset.trans hr))
    exact ⟨(keeps_setCtl _ s).trans ended.toKeeps,
      fun _ => ended.linkLaw (fun _ => trivial) fun _ => shut_closeTransaction s⟩
  · exact ⟨.refl s, id⟩

end Sys2Proof.Machine
end

section
/-! The invariants O54 to O60: every row of the opcode table keeps every law, and so does a step. -/

namespace Sys2Proof.Machine

/-- Every law of the blocks and the law of the link are kept. -/
structure Upholds (s t : State) : Prop extends Keeps s t where
  link : LinkLaw s → LinkLaw t

theorem Upholds.refl (s : State) : Upholds s s := { Keeps.refl s with link := id }

theorem Runs.upholds {cut : Prop} {s t : State} (h : Runs cut s t) (hc : s.ctl.lselLow = false → cut) : Upholds s t where
  toKeeps := h.toKeeps
  link := h.linkLaw hc

theorem Effect.upholds {s t : State} (h : Effect s t) : Upholds s t where
  toKeeps := h.toKeeps
  link hl := by rwa [linkLaw_iff, h.inReset, h.ctl]

theorem effect_settle (s : State) : Effect s (settle s) := effect_setRte rfl rfl rfl rfl

theorem Upholds.settle {s t : State} (h : Upholds s t) : Upholds s (settle t) where
  toKeeps := h.toKeeps.trans (effect_settle t).toKeeps
  link hl := h.link hl

/-! ### The outcomes of a row -/

theorem upholds_live {f : State → State} {s t : State} (h : s.inReset = false → Upholds s (f s))
    (ht : live f s = .next t) : Upholds s t := by
  cases hr : s.inReset with
  | true =>
    rw [live_held hr] at ht
    cases ht
    exact .refl s
  | false =>
    rw [live_next hr] at ht
    cases ht
    exact (h hr).settle

theorem upholds_liveInput {g f : State → State} {s t : State} (held : Upholds s (g s))
    (h : s.inReset = false → Upholds s (f s)) (ht : liveInput g f s = .next t) : Upholds s t := by
  cases hr : s.inReset with
  | true =>
    rw [liveInput_held hr] at ht
    cases ht
    exact held
  | false =>
    rw [liveInput_next hr] at ht
    cases ht
    exact (h hr).settle

/-- A row that is an effect of the running part. -/
theorem upholds_effect {f : State → State} {s t : State} (h : s.inReset = false → Effect s (f s))
    (ht : live f s = .next t) : Upholds s t :=
  upholds_live (fun hr => (h hr).upholds) ht

/-- A row that is a move of the running part. -/
theorem upholds_runs {f : State → State} {s t : State} (h : s.inReset = false → Runs True s (f s))
    (ht : live f s = .next t) : Upholds s t :=
  upholds_live (fun hr => (h hr).upholds fun _ => trivial) ht

theorem upholds_taken {byte : Byte} {f : Frame} {s t : State} (ht : live (commandTaken byte f) s = .next t) :
    Upholds s t :=
  upholds_live (fun hr => (runs_commandTaken byte f hr).upholds id) ht

/-- Both moments of a command served apart from its taking (log 2). -/
theorem upholds_at {m : Moment} {c : Cmd} {f : Frame} {s t : State} (ht : live (commandAt m c f) s = .next t) :
    Upholds s t := by
  cases m with
  | taken => exact upholds_taken ht
  | served => exact upholds_runs (fun hr => runs_commandServed c f hr) ht

theorem upholds_fullReset {cause : ResetCause} {s t : State} (ht : always (fullReset cause) s = .next t) :
    Upholds s t := by
  cases ht
  exact { keeps_fullReset cause s with link := linkLaw_fullReset cause }

theorem upholds_resetRelease {s t : State} (ht : always resetReleaseSettled s = .next t) : Upholds s t := by
  cases ht
  show Upholds s (resetReleaseSettled s)
  unfold resetReleaseSettled
  split
  · next hr =>
    refine Upholds.settle { keeps_resetRelease s with link := fun hl _ => ?_ }
    have ctl : (resetRelease s).ctl = s.ctl := by
      unfold resetRelease
      rw [if_pos hr]
      rfl
    rw [ctl]
    exact hl (.inl hr)
  · exact .refl s

theorem upholds_displayUnit {waits : State → Bool} {f : State → State} {s t : State} (h : Effect s (f s))
    (ht : live (displayUnit waits f) s = .next t) : Upholds s t :=
  upholds_effect (fun _ => .ite _ (fun _ => h.unitAt) fun _ => .refl s) ht

/-- The level of LSEL followed while a reset is held (log 24). -/
theorem upholds_lsel {low : Bool} {f : State → State} {s t : State} (h : s.inReset = false → Upholds s (f s))
    (ht : liveInput (setLsel low) f s = .next t) : Upholds s t := by
  cases hr : s.inReset with
  | true =>
    rw [liveInput_held hr] at ht
    cases ht
    exact { keeps_setCtl _ s with link := fun hl _ => hl (.inl hr) }
  | false => exact upholds_live h (by rwa [live_next hr, ← liveInput_next (g := setLsel low) hr])

theorem effect_pinsHeld (cs : List PinChange) (s : State) : Effect s (pinsHeld cs s) := by
  refine effect_setPfe_banks ?_
  rw [Pfe.withPins_banks]

/-- Every row of the opcode table keeps every law. -/
theorem upholds_exec {i : Instr} {s t : State} (h : exec i s = .next t) : Upholds s t := by
  cases i with
  | probeRead => exact upholds_at h
  | laneStatus => exact upholds_at h
  | lookup => exact upholds_at h
  | walk => exact upholds_at h
  | walkFrom => exact upholds_at h
  | seed => exact upholds_at h
  | amend => exact upholds_at h
  | retire => exact upholds_at h
  | clearTable => exact upholds_at h
  | tableInfo => exact upholds_at h
  | hold => exact upholds_at h
  | watchSet => exact upholds_at h
  | trapSet => exact upholds_at h
  | sleep => exact upholds_at h
  | lselFallingEdge =>
    refine upholds_lsel (fun hr => ?_) h
    obtain ⟨keeps, low, running⟩ := keeps_lselFalls hr
    refine { keeps with link := fun _ => ?_ }
    rintro (hh | hh)
    · exact absurd (running.symm.trans hh) nofun
    · exact absurd (low.symm.trans hh) nofun
  | lselRisingEdge =>
    refine upholds_lsel (fun hr => ?_) h
    obtain ⟨keeps, link⟩ := keeps_lselRises hr
    exact { keeps with link }
  | completeDelivery => exact upholds_live (fun hr => (runs_clockOutAnswer hr).upholds id) h
  | rawLevelChange c =>
    exact upholds_liveInput (effect_pinsHeld _ s).upholds (fun hr => (effect_rawLevelChange _ _ hr).upholds) h
  | qualifiedEdge e => exact upholds_effect (fun hr => effect_qualify e hr) h
  | absorption i => exact upholds_effect (fun _ => effect_absorption i s) h
  | marking i => exact upholds_runs (fun hr => runs_marking i hr) h
  | retirement i => exact upholds_runs (fun hr => runs_retirement i hr) h
  | rankingSlice => exact upholds_displayUnit (effect_rankingSlice s) h
  | drawingSlice => exact upholds_displayUnit (effect_drawingSlice s) h
  | settingsBlock => exact upholds_runs (fun hr => runs_settingsServed hr) h
  | seedApplication => exact upholds_runs (fun hr => runs_seedServed hr) h
  | imageJudgement => exact upholds_runs (fun hr => runs_imageJudged hr) h
  | invalidate => exact upholds_effect (fun _ => effect_storeInvalidate s) h
  | erase => exact upholds_effect (fun _ => effect_storeErase s) h
  | program ds => exact upholds_effect (fun _ => effect_storeProgram ds s) h
  | verify => exact upholds_effect (fun hr => effect_storeVerify hr) h
  | commit => exact upholds_effect (fun hr => effect_storeCommit hr) h
  | epochExpiry => exact upholds_effect (fun _ => effect_epochExpiry s) h
  | dimTimerExpiry => exact upholds_effect (fun _ => effect_dimExpiry s) h
  | darkTimerExpiry => exact upholds_effect (fun _ => effect_darkExpiry s) h
  | sleepTimerExpiry => exact upholds_effect (fun hr => effect_sleepExpiry hr) h
  | sleepEntryCompletion => exact upholds_effect (fun _ => effect_sleepEntryCompletion s) h
  | wakeSideEdge p => exact upholds_effect (fun _ => effect_wakeSideEdge p s) h
  | wakeCompletion => exact upholds_runs (fun hr => runs_wakeCompletes hr) h
  | refreshExpiry => exact upholds_effect (fun _ => effect_refreshExpiry s) h
  | line => exact upholds_effect (fun _ => effect_lineSent s) h
  | holdkeyChange low =>
    have held : Effect s (holdkeyHeld low s) := effect_setPwu rfl rfl rfl rfl id
    have changes : Effect s (holdkeyChanges low s) := effect_setPwu rfl rfl rfl rfl id
    exact upholds_liveInput held.upholds (fun _ => changes.upholds) h
  | debounceExpiry => exact upholds_effect (fun hr => effect_debounce hr) h
  | powerOn => exact upholds_fullReset h
  | resetPin => exact upholds_fullReset h
  | supplyLow => exact upholds_fullReset h
  | byteCell p => exact upholds_live (fun hr => (runs_byteCell p hr).upholds id) h
  | panelMessageSent => exact upholds_effect (fun _ => effect_panelMessageSent s) h
  | resetRelease => exact upholds_resetRelease h
  | _ => exact upholds_taken h

/-- A step executes the command at the front of the queue, which enters no law. -/
theorem upholds_step {s t : State} (h : step s = .next t) : Upholds s t := by
  unfold step at h
  split at h
  · cases h
    exact .refl s
  · next c cs _ =>
    have popped : Keeps s (s.withPending cs) := {}
    have row := upholds_exec h
    exact { popped.trans row.toKeeps with link := row.link }

/-- Settles O54: the table and binding laws of the bundle every step keeps. -/
theorem tableAndBindingsHold : Obligations.TableAndBindingsHold := fun _ _ ht hb h =>
  ⟨(upholds_step h).table ht, (upholds_step h).binding ht hb⟩

/-- Settles O55: the record law of the bundle every step keeps. -/
theorem recordsHold : Obligations.RecordsHold := fun _ _ hr h => (upholds_step h).records hr

/-- Settles O56: the capture and flash laws of the bundle every step keeps. -/
theorem captureAndFlashHold : Obligations.CaptureAndFlashHold := fun _ _ hc hf h =>
  ⟨(upholds_step h).capture hc, (upholds_step h).flash hf⟩

/-- Settles O57: the power and panel laws, which need each other, of the bundle every step keeps. -/
theorem powerAndPanelHold : Obligations.PowerAndPanelHold := fun _ _ hp hd h => (upholds_step h).power hp hd

/-- Settles O58: the lane and width laws of the bundle every step keeps. -/
theorem lanesAndWidthsHold : Obligations.LanesAndWidthsHold := fun _ _ ht hl hw h =>
  ⟨(upholds_step h).lanes hl, (upholds_step h).widths ht hl hw⟩

/-- Settles O59: the settings law of the bundle every step keeps. -/
theorem settingsHold : Obligations.SettingsHold := fun _ _ hs h => (upholds_step h).settings hs

/-- Settles O60: the link law, kept by every move of the running part and by every reset. -/
theorem linkHolds : Obligations.LinkHolds := fun _ _ hl h => (upholds_step h).link hl

end Sys2Proof.Machine
end

section
/-! One step, full reset and its release, and the edges of LSEL: O1 to O7, O10 and O35. -/

namespace Sys2Proof.Machine

/-- Settles O1: `step` takes the front of the queue by definition. -/
theorem stepRunsTheFrontCommand : Obligations.StepRunsTheFrontCommand :=
  ⟨fun _ _ _ => rfl, fun _ => rfl⟩

/-- Settles O2: every block's reset values meet its laws; the dim timer runs in RUN. -/
theorem resetMeetsTheLaws : Obligations.ResetMeetsTheLaws := by
  have timer : TimerLaw State.reset.pwu := fun t n h => by
    obtain ⟨rfl, rfl⟩ : ChainTimer.dim = t ∧ 30 = n := by simpa [State.reset, Pwu.reset] using h
    exact ⟨rfl, .inl ⟨rfl, rfl⟩⟩
  exact ⟨⟨Nat.zero_le _, .nil⟩, bindingLaw_of_reset rfl rfl,
    ⟨Nat.zero_le _, fun _ h => absurd h List.not_mem_nil⟩, by decide, lanesLaw_of_reset rfl, widthLaw_of_empty rfl,
    ⟨nofun, nofun, nofun, timer, nofun⟩, by decide, by decide, State.reset_flash_wf, by decide⟩

/-! ### Full reset -/

/-- What a full reset leaves, of a part with the same pins, HOLDKEY level, flash and queue as `s` (R181). -/
theorem fullReset_leaves {cause : ResetCause} {s u : State} (hr : u.inReset = false) (hpins : u.pfe.pins = s.pfe.pins)
    (hkey : u.pwu.keyLow = s.pwu.keyLow) (hflash : u.pim.flash = s.pim.flash) (hqueue : u.pending = s.pending) :
    AfterFullReset cause u.ctl.lselLow s (fullReset cause u) := by
  rw [fullReset_running hr]
  exact
    { held := rfl
      queue := hqueue
      pins := ⟨hpins, rfl⟩
      banks := fun b => by simp [Pfe.reset]
      probes := fun p => by simp [Pfe.reset, Probe.reset]
      lanes := fun i => lanes_reset_get i
      rte := rfl
      slots := fun i => by simp [Wta.reset]
      traps := fun i => by simp [Wta.reset, Trap.reset]
      causes := ⟨rfl, rfl⟩
      rows := fun i => by simp [Dse.reset]
      panel := ⟨rfl, rfl, rfl, rfl, rfl, rfl, rfl⟩
      lastSent := fun n => by simp [Dse.reset, blankLine]
      power := by rw [← hkey]; rfl
      link := rfl
      profile := by rw [← hflash]; rfl }

/-- Settles O3: all three causes are one full reset, whose values are those of R181. -/
theorem fullResetTakesEveryBlock : Obligations.FullResetTakesEveryBlock := fun _ hr =>
  ⟨⟨_, rfl, fullReset_leaves hr rfl rfl rfl rfl⟩, ⟨_, rfl, fullReset_leaves hr rfl rfl rfl rfl⟩,
    ⟨_, rfl, fullReset_leaves hr rfl rfl rfl rfl⟩⟩

/-- Settles O4: the release of a held reset, block by block. -/
theorem resetReleaseStartsTheLoad : Obligations.ResetReleaseStartsTheLoad := by
  refine fun s => ⟨fun hr => ?_, fun hr => ?_⟩
  · show Host.Outcome.next (resetReleaseSettled s) = _
    rw [resetReleaseSettled, if_pos hr, resetRelease, if_pos hr]
    rfl
  · show Host.Outcome.next (resetReleaseSettled s) = _
    rw [resetReleaseSettled, if_neg (by rw [hr]; nofun)]

theorem always_fullReset_held {cause : ResetCause} {s : State} (h : s.inReset = true) :
    always (fullReset cause) s = .next s := by
  rw [always, fullReset, if_pos h]

/-- Settles O5: a level that is followed, or a row that `live` and `fullReset` disregard. -/
theorem heldResetFollowsInputsOnly : Obligations.HeldResetFollowsInputsOnly := by
  intro s hr
  refine ⟨liveInput_held hr, liveInput_held hr, fun _ => liveInput_held hr, fun _ _ => liveInput_held hr, ?_⟩
  intro i hfall hrise hkey hraw hrelease
  cases i with
  | lselFallingEdge => exact absurd rfl hfall
  | lselRisingEdge => exact absurd rfl hrise
  | holdkeyChange low => exact absurd rfl (hkey low)
  | rawLevelChange change => exact absurd rfl (hraw change.pins change.due)
  | resetRelease => exact absurd rfl hrelease
  | powerOn => exact always_fullReset_held hr
  | resetPin => exact always_fullReset_held hr
  | supplyLow => exact always_fullReset_held hr
  | _ => exact live_held hr

/-! ### LSEL falls -/

theorem exec_lselFalls {s : State} (hr : s.inReset = false) : exec .lselFallingEdge s = .next (settle (lselFalls s)) :=
  liveInput_next hr

theorem restartEnabled_get (s : State) (i : Fin 4) : (restartEnabled s).lanes[i] =
    if (s.lanes[i]).enabled then (s.lanes[i]).restart .marking s.pfe.levels else s.lanes[i] :=
  mapAll_get _ _ _

/-- A sleep entry aborted: RUN, the enabled lanes restarted, and the panel ON where it may come ON (R164). -/
theorem abortSleepEntry_entry {s : State} (h : s.pwu.op = .sleepEntry) :
    ∃ d : Dse, abortSleepEntry s = (restartEnabled (s.setPwu s.pwu.toRun)).setDse d
      ∧ (startUpDone s = true → d.panelOn = true) := by
  rw [abortSleepEntry, if_pos h]
  have awake : startUpDone (restartEnabled (s.setPwu s.pwu.toRun)) = startUpDone s := rfl
  have panel : (restartEnabled (s.setPwu s.pwu.toRun)).dse.panelOn = s.dse.panelOn := rfl
  cases hon : s.dse.panelOn with
  | true => exact ⟨_, panelTurnOn_on (panel.trans hon), fun _ => hon⟩
  | false =>
    cases hd : startUpDone s with
    | true =>
      obtain ⟨_, -, on⟩ := panelTurnOn_off (panel.trans hon) (awake.trans hd)
      exact ⟨_, on, fun _ => rfl⟩
    | false => exact ⟨_, panelTurnOn_early (awake.trans hd), nofun⟩

/-- Settles O6: an open transaction; a wake event in SLEEP; an aborted sleep entry. -/
theorem lselFallOpensATransaction : Obligations.LselFallOpensATransaction := by
  intro s hr
  refine ⟨fun hlow => ?_, fun hhigh hop hpow => ?_, fun hhigh hop hpow => ?_, fun hhigh hop => ?_⟩
  · rw [exec_lselFalls hr, lselFalls, if_pos hlow]
  all_goals rw [exec_lselFalls hr, lselFalls, if_neg (by rw [hhigh]; nofun)]
  · rw [abortSleepEntry, if_neg (by exact hop), wakeEvent_awake (by exact hpow)]
    rfl
  · rw [abortSleepEntry, if_neg (by exact hop), wakeEvent_sleep (by exact hpow)]
    rfl
  · obtain ⟨d, habort, hpanel⟩ := abortSleepEntry_entry (s := s.setCtl { s.ctl with
      lselLow := true, phase := .command, txn := Txn.empty, cell := some Cell.first }) hop
    rw [habort, wakeEvent_awake (by exact fun h : PowerState.run = .sleep => nomatch h)]
    exact ⟨_, rfl, rfl, rfl, restartEnabled_get s, hpanel, rfl, rfl, rfl, rfl⟩

/-! ### LSEL rises -/

theorem exec_lselRises {s : State} (hr : s.inReset = false) : exec .lselRisingEdge s = .next (settle (lselRises s)) :=
  liveInput_next hr

theorem lselRises_low {s : State} (h : s.ctl.lselLow = true) :
    lselRises s = afterRise s.ctl.txn (loseAnswer s.ctl.txn s.ctl.phase (cutOff s)) := if_pos h

/-- The loss of an answer leaves the inputs, the flash, the link and the queue. -/
theorem failDelivery_inputs (c : Cmd) (ops : List Byte) (s : State) :
    (failDelivery c ops s).pfe.pins = s.pfe.pins ∧ (failDelivery c ops s).pwu.keyLow = s.pwu.keyLow
      ∧ (failDelivery c ops s).pim.flash = s.pim.flash := by
  cases c with
  | takeWatch =>
    show (Option.elim _ s _).pfe.pins = _ ∧ _
    cases h : slotOf (byteAt ops 0) <;> simp [failDelivery, h, modifySlot]
  | laneStatus => cases h : laneOf (byteAt ops 0) <;> simp [failDelivery, h, modifyLane]
  | trapRead => cases h : windowOf (byteAt ops 0) <;> simp [failDelivery, h, modifyTrap]
  | _ => exact ⟨rfl, rfl, rfl⟩

theorem loseAnswer_inputs (t : Txn) (ph : Phase) (s : State) :
    (loseAnswer t ph s).pfe.pins = s.pfe.pins ∧ (loseAnswer t ph s).pwu.keyLow = s.pwu.keyLow
      ∧ (loseAnswer t ph s).pim.flash = s.pim.flash := by
  unfold loseAnswer
  split
  · cases t.answered with
    | none => exact ⟨rfl, rfl, rfl⟩
    | some c => exact failDelivery_inputs c _ s
  · exact ⟨rfl, rfl, rfl⟩

/-- A part that has just been reset has no unit of work. -/
theorem settle_fullReset {cause : ResetCause} {s : State} (hr : s.inReset = false) :
    settle (fullReset cause s) = fullReset cause s := by
  rw [fullReset_running hr]
  rfl

/-- The loss of a SLEEP answer leaves nothing but the end of the transaction: SLEEP has no notes (R178). -/
theorem loseAnswer_sleep {s t : State} (h : s.ctl.phase = .answer → s.ctl.txn.command = some 0x42) :
    loseAnswer s.ctl.txn s.ctl.phase t = t := by
  unfold loseAnswer
  split
  · next hp =>
    unfold Txn.answered
    rw [h hp]
    split <;> rfl
  · rfl

/-- What the beginning of sleep entry does to each block (R36, R162). -/
theorem beginSleepEntry_effect {s : State} (ho : s.pwu.op = .none) (hp : s.pwu.power ≠ .sleep) :
    beginSleepEntry s = ((s.setPwu { s.pwu with power := .dark, op := .sleepEntry, timer := none, deferred := false }).setLanes
      (mapAll (Lane.stop s.pfe.levels) s.lanes)).setDse s.dse.turnedOff := by
  rw [beginSleepEntry, if_pos ⟨ho, hp⟩]
  dsimp only
  rw [panelTurnOff_eq]
  rfl

theorem beginSleepEntry_not {s : State} (h : s.pwu.op ≠ .none ∨ s.pwu.power = .sleep) : beginSleepEntry s = s := by
  rw [beginSleepEntry, if_neg]
  rintro ⟨ho, hp⟩
  exact h.elim (absurd ho) hp

theorem Dse.turnedOff_panelOn (d : Dse) : d.turnedOff.panelOn = false := by
  unfold Dse.turnedOff
  split
  · rfl
  · next h => simpa using h

theorem LaneConfig.anyActive_iff {c : LaneConfig} {lv : Levels} :
    c.anyActive lv = true ↔ ∃ n : Fin 4, n.val < c.selectCount ∧ lv (c.pins.sel[n]) = false := by
  have all : ∀ n : Fin 4, n ∈ [(0 : Fin 4), 1, 2, 3] := by decide
  simp only [LaneConfig.anyActive, LaneConfig.selects, List.any_filter, LaneConfig.active, List.any_eq_true,
    Bool.and_eq_true, decide_eq_true_eq, Bool.not_eq_true']
  exact ⟨fun ⟨n, _, h⟩ => ⟨n, h⟩, fun ⟨n, h⟩ => ⟨n, all n, h⟩⟩

theorem seekingState_eq (c : LaneConfig) (lv : Levels) : c.seekingState lv =
    if c.kind = .fourWire ∧ ∀ n : Fin 4, n.val < c.selectCount → lv (c.pins.sel[n]) = true then .idle else .seeking := by
  have quiet : (¬ c.anyActive lv = true) ↔ ∀ n : Fin 4, n.val < c.selectCount → lv (c.pins.sel[n]) = true := by
    rw [LaneConfig.anyActive_iff]
    push Not
    simp
  unfold LaneConfig.seekingState
  simp only [quiet]

/-- A lane stopped, spelled out (R36, R60, R71). -/
theorem stop_eq (lv : Levels) (l : Lane) : l.stop lv = stoppedLane lv l := by
  unfold Lane.stop stoppedLane
  rw [seekingState_eq]
  rfl

theorem mapAll_stop_get (s : State) (i : Fin 4) :
    (mapAll (Lane.stop s.pfe.levels) s.lanes)[i] = stoppedLane s.pfe.levels s.lanes[i] := by
  rw [mapAll_get, stop_eq]

/-- An answer lost with LSEL, spelled by its command (R178). -/
theorem loseAnswer_answer (t : Txn) (s : State) : loseAnswer t .answer s = match t.answered with
    | some .takeWatch => match slotOf (byteAt t.operands 0) with
      | some i => { s with wta := { s.wta with slots := s.wta.slots.set i (s.wta.slots[i]).lost } }
      | none => s
    | some .walk => { s with rte := { s.rte with walkNote := none } }
    | some .probeRead => { s with pfe := { s.pfe with
        probes := Vector.ofFn fun i => { s.pfe.probes[i] with clearNote := false } } }
    | some .laneStatus => match laneOf (byteAt t.operands 0) with
      | some i => { s with lanes := s.lanes.set i { s.lanes[i] with notes := 0 } }
      | none => s
    | some .trapRead => match laneOf (byteAt t.operands 0) with
      | some i => { s with wta := { s.wta with traps := s.wta.traps.set i { s.wta.traps[i] with clearNote := none } } }
      | none => s
    | some .powerStatus => { s with pwu := { s.pwu with clearNote := none } }
    | _ => s := by
  rw [loseAnswer, if_pos rfl]
  cases t.answered with
  | none => rfl
  | some c =>
    cases c with
    | takeWatch =>
      simp only [Option.elim, failDelivery]
      cases slotOf (byteAt t.operands 0) <;> rfl
    | laneStatus =>
      simp only [Option.elim, failDelivery]
      cases laneOf (byteAt t.operands 0) <;> rfl
    | trapRead =>
      simp only [Option.elim, failDelivery, windowOf]
      cases laneOf (byteAt t.operands 0) <;> rfl
    | _ => rfl

/-- Settles O7: the transaction is cut off, its answer lost, and RESTART and SLEEP take effect. -/
theorem lselRiseEndsTheTransaction : Obligations.LselRiseEndsTheTransaction := by
  intro s hr
  refine ⟨fun hhigh => ?_, fun hlow hrestart hsleep => ⟨fun hph => ?_, fun hph => ?_⟩, fun hlow hrestart => ?_,
    fun hlow hrestart hsleep hcmd hbusy => ?_, fun hlow hrestart hsleep hcmd hop hpow => ?_⟩
  · rw [exec_lselRises hr, lselRises, if_neg (by rw [hhigh]; nofun)]
  all_goals rw [exec_lselRises hr, lselRises_low hlow, afterRise]
  · rw [hrestart, hsleep, loseAnswer, if_neg hph]
    rfl
  · rw [hrestart, hsleep, hph, loseAnswer_answer]
    rfl
  · rw [if_pos hrestart]
    have running : (loseAnswer s.ctl.txn s.ctl.phase (cutOff s)).inReset = false :=
      (effect_loseAnswer _ _ _).inReset.trans hr
    obtain ⟨pins, key, flash⟩ := loseAnswer_inputs s.ctl.txn s.ctl.phase (cutOff s)
    have high : (loseAnswer s.ctl.txn s.ctl.phase (cutOff s)).ctl.lselLow = false := by
      rw [(effect_loseAnswer _ _ _).ctl]
      rfl
    rw [settle_fullReset running]
    exact ⟨_, rfl, high ▸ fullReset_leaves running pins key flash (effect_loseAnswer _ _ _).pending⟩
  · rw [hrestart, hsleep, loseAnswer_sleep hcmd]
    show Host.Outcome.next (settle (beginSleepEntry (cutOff s))) = _
    rw [beginSleepEntry_not (s := cutOff s) hbusy]
  · rw [hrestart, hsleep, loseAnswer_sleep hcmd]
    show ∃ t, Host.Outcome.next (settle (beginSleepEntry (cutOff s))) = .next t ∧ _
    rw [beginSleepEntry_effect (s := cutOff s) hop hpow]
    exact ⟨_, rfl, rfl, rfl, s.dse.turnedOff_panelOn, mapAll_stop_get s, rfl, rfl, rfl, rfl⟩

/-! ### Complete delivery -/

theorem deliver_answered (o : Option Cmd) (ops : List Byte) (s : State) :
    (o.elim s fun c => deliver c ops s) = match o with
      | some .takeWatch => match slotOf (byteAt ops 0) with
        | some i => { s with wta := { s.wta with slots := s.wta.slots.set i (s.wta.slots[i]).delivered } }
        | none => s
      | some .walk => { s with rte := { s.rte with cursor := s.rte.walkNote.getD s.rte.cursor, walkNote := none } }
      | some .probeRead => { s with pfe := { s.pfe with
          probes := Vector.ofFn fun i =>
            { s.pfe.probes[i] with
              glitch := (s.pfe.probes[i]).glitch && !(s.pfe.probes[i]).clearNote, clearNote := false } } }
      | some .laneStatus => match laneOf (byteAt ops 0) with
        | some i => { s with
            lanes := s.lanes.set i { s.lanes[i] with flags := (s.lanes[i]).flags &&& ~~~(s.lanes[i]).notes, notes := 0 } }
        | none => s
      | some .trapRead => match laneOf (byteAt ops 0) with
        | some i => match (s.wta.traps[i]).clearNote with
          | some n => { s with wta := { s.wta with
              traps := s.wta.traps.set i { s.wta.traps[i] with count := n.count, first := n.first, clearNote := none } } }
          | none => s
        | none => s
      | some .powerStatus => { s with pwu := { s.pwu with
          clearNote := none
          wakePending := match s.pwu.clearNote with
            | some n => ⟨s.pwu.wakePending.probes &&& ~~~n.probes, s.pwu.wakePending.holdkey && !n.holdkey,
                s.pwu.wakePending.lsel && !n.lsel⟩
            | none => s.pwu.wakePending } }
      | some .release => { s with ctl := { s.ctl with link := .ready } }
      | _ => s := by
  cases o with
  | none => rfl
  | some c =>
    cases c with
    | takeWatch =>
      simp only [Option.elim, deliver]
      cases slotOf (byteAt ops 0) <;> rfl
    | laneStatus =>
      simp only [Option.elim, deliver]
      cases laneOf (byteAt ops 0) <;> rfl
    | trapRead =>
      simp only [Option.elim, deliver, windowOf]
      cases laneOf (byteAt ops 0) with
      | none => rfl
      | some i =>
        dsimp only
        unfold modifyTrap modifyAt Trap.delivered
        cases (s.wta.traps[i]).clearNote with
        | none => simp [State.setWta]
        | some n => rfl
    | powerStatus =>
      simp only [Option.elim, deliver, deliverWakeSources]
      cases s.pwu.clearNote <;> rfl
    | _ => rfl

/-- Settles O10: the last byte sent, and the delivery of the command whose OK answer it is. -/
theorem completeDeliveryConsumes : Obligations.CompleteDeliveryConsumes := by
  intro s hr
  have row : exec .completeDelivery s = .next (settle (clockOutAnswer s)) := live_next hr
  refine ⟨fun h => ?_, fun hlow hph => ?_⟩
  · rw [row, clockOutAnswer, if_neg h]
  · rw [row, clockOutAnswer, if_pos ⟨hlow, hph⟩]
    show Host.Outcome.next (settle (s.ctl.txn.answered.elim (sentWhole s) fun c => deliver c s.ctl.txn.operands (sentWhole s))) = _
    rw [deliver_answered]
    rfl

/-! ### Watch slots -/

/-- Settles O35: each transition is the slot's own. -/
theorem slotTransitions : Obligations.SlotTransitions := fun _ _ _ _ _ _ _ =>
  ⟨rfl, rfl, rfl, rfl, rfl, fun _ => rfl, rfl, rfl, rfl, rfl, rfl, rfl, rfl, rfl, rfl, rfl⟩

end Sys2Proof.Machine
end

section
/-! Byte cells and the taking of a command: O8 and O9. The clock edges of a cell move only the cell, and the phase in which a
frame completes does not enter its taking. -/

namespace Sys2Proof.Machine

/-! ### The service rotation at a standstill -/

theorem unitWaits_of_settled {s : State} {p : Position} (h : settled s = some p) : unitWaits s p = true := by
  unfold settled at h
  split at h
  · split at h
    · next hw => exact Option.some.inj h ▸ hw
    · exact List.find?_some h
  · exact List.find?_some h

/-- What the RTE has taken up stays its unit (R89). -/
theorem settle_settle (s : State) : settle (settle s) = settle s := by
  have again : settled (settle s) = settled s := by
    have next : nextPosition (settle s) = nextPosition s := rfl
    have waits (p : Position) : unitWaits (settle s) p = unitWaits s p := rfl
    rw [settled, settle_serving]
    cases hs : settled s with
    | some p => simp only [waits, unitWaits_of_settled hs, if_true]
    | none =>
      simp only [next]
      unfold settled at hs
      split at hs
      · split at hs
        · cases hs
        · exact hs
      · exact hs
  rw [settle_eq (settle s), again]
  rfl

/-- A move of the link that leaves what waits leaves the rotation. -/
theorem settle_setCtl {c : Ctl} {s : State} (h : c.waiting = s.ctl.waiting) :
    settle (s.setCtl c) = (settle s).setCtl c := by
  have waits (p : Position) : unitWaits (s.setCtl c) p = unitWaits s p := by
    cases p with
    | link => exact congrArg (List.any · fun w => atLink w.cmd) h
    | _ => rfl
  have next : nextPosition (s.setCtl c) = nextPosition s := by
    unfold nextPosition
    rw [show unitWaits (s.setCtl c) = unitWaits s from funext waits]
    rfl
  rw [settle_eq, settle_eq, settled, settled, State.setCtl_rte]
  simp only [waits, next]
  rfl

/-! ### The edges of a cell -/

/-- The part with this cell in progress. -/
def withCell (c : Cell) (s : State) : State := s.setCtl { s.ctl with cell := some c }

theorem exec_byteCell {p : CellPart} {s : State} (hr : s.inReset = false) :
    exec (.byteCell p) s = .next (settle (byteCell p s)) := live_next hr

theorem settle_withCell {c : Cell} {s : State} (h : settle s = s) : settle (withCell c s) = withCell c s := by
  have moved : settle (withCell c s) = withCell c (settle s) := settle_setCtl rfl
  rw [moved, h]

theorem runAll_next {i : Instr} {is : List Instr} {s t : State} (h : exec i s = .next t) :
    runAll (i :: is) s = runAll is t := by
  rw [runAll, h]

/-- The part is settled with LSEL low, out of reset: its cells move. -/
def Clocked (s : State) : Prop := s.inReset = false ∧ s.ctl.lselLow = true ∧ settle s = s

theorem Clocked.withCell {s : State} (h : Clocked s) (c : Cell) : Clocked (withCell c s) := by
  obtain ⟨hr, hl, hs⟩ := h
  exact ⟨hr, hl, settle_withCell hs⟩

theorem exec_fall {c : Cell} {s : State} (h : Clocked s) (hc : s.ctl.cell = some c) :
    exec (.byteCell .fall) s = .next (withCell (c.fall s.ctl.nextOut) s) := by
  obtain ⟨hr, hl, hs⟩ := h
  have moved : byteCell .fall s = withCell (c.fall s.ctl.nextOut) s := by
    rw [byteCell, if_pos hl]
    show clockFalls s = _
    rw [clockFalls, hc]
    rfl
  rw [exec_byteCell hr, moved, settle_withCell hs]

theorem exec_rise {c : Cell} {x : Bool} {s : State} (h : Clocked s) (hc : s.ctl.cell = some c) (hk : c.clock = false)
    (hb : c.bits.length < 7) :
    exec (.byteCell (.rise x)) s = .next (withCell { c with bits := c.bits ++ [x], clock := true } s) := by
  obtain ⟨hr, hl, hs⟩ := h
  have moved : byteCell (.rise x) s = withCell { c with bits := c.bits ++ [x], clock := true } s := by
    rw [byteCell, if_pos hl]
    show clockRises x s = _
    simp only [clockRises, hc, hk, Bool.false_eq_true, if_false, if_pos hb]
    rfl
  rw [exec_byteCell hr, moved, settle_withCell hs]

theorem exec_lastRise {c : Cell} {x : Bool} {s : State} (hr : s.inReset = false) (hl : s.ctl.lselLow = true)
    (hc : s.ctl.cell = some c) (hk : c.clock = false) (hb : c.bits.length = 7) :
    exec (.byteCell (.rise x)) s = .next (settle (cellCompletes (byteOf (bitsNat (c.bits ++ [x]))) c s)) := by
  have moved : byteCell (.rise x) s = cellCompletes (byteOf (bitsNat (c.bits ++ [x]))) c s := by
    rw [byteCell, if_pos hl]
    show clockRises x s = _
    simp only [clockRises, hc, hk, Bool.false_eq_true, if_false, if_neg (show ¬ c.bits.length < 7 by omega)]
  rw [exec_byteCell hr, moved]

/-- The two clock edges that bring one bit (R172). -/
def bitEdges (x : Bool) : List Instr := [.byteCell .fall, .byteCell (.rise x)]

/-- Bits more of a cell in progress, short of the eighth. -/
theorem runAll_bits {o : Byte} {a : Bool} {s : State} (h : Clocked s) (rest : List Instr) (xs : List Bool) :
    ∀ bits : List Bool, bits ≠ [] → bits.length + xs.length ≤ 7 →
      runAll (xs.flatMap bitEdges ++ rest) (withCell ⟨bits, true, o, a⟩ s)
        = runAll rest (withCell ⟨bits ++ xs, true, o, a⟩ s) := by
  induction xs with
  | nil =>
    intro bits _ _
    rw [List.append_nil]
    rfl
  | cons x xs ih =>
    intro bits hb hlen
    rw [List.length_cons] at hlen
    have fallen : (Cell.mk bits true o a).fall (withCell ⟨bits, true, o, a⟩ s).ctl.nextOut = ⟨bits, false, o, a⟩ := by
      simp [Cell.fall, hb]
    have risen := exec_rise (x := x) ((h.withCell ⟨bits, true, o, a⟩).withCell ⟨bits, false, o, a⟩) rfl rfl
      (show bits.length < 7 by omega)
    show runAll (.byteCell .fall :: .byteCell (.rise x) :: (xs.flatMap bitEdges ++ rest)) _ = _
    rw [runAll_next (exec_fall (h.withCell _) rfl), fallen, runAll_next risen]
    refine (ih (bits ++ [x]) (by simp) (by simp; omega)).trans ?_
    rw [List.append_assoc]
    rfl

/-- A cell completes by its byte, what it carried and whether that was the answer's; the cell itself is overwritten. -/
theorem cellCompletes_withCell (b : Byte) (c c' : Cell) (s : State) :
    cellCompletes b c (withCell c' s) = cellCompletes b c s := rfl

theorem cellCompletes_congr {b : Byte} {c c' : Cell} (s : State) (ho : c.out = c'.out) (ha : c.answers = c'.answers) :
    cellCompletes b c s = cellCompletes b c' s := by
  obtain ⟨_, _, o, a⟩ := c
  obtain ⟨_, _, o', a'⟩ := c'
  cases ho
  cases ha
  rfl

/-- The eighth bit of a cell completes it with the byte its bits spell (R172). -/
theorem runAll_lastBit {b o : Byte} {a : Bool} {s : State} (h : Clocked s) :
    runAll (bitEdges (b.getLsbD 0)) (withCell ⟨(byteBits b).take 7, true, o, a⟩ s)
      = .next (settle (cellCompletes b ⟨[], false, o, a⟩ s)) := by
  have hlast := exec_lastRise (c := ⟨(byteBits b).take 7, false, o, a⟩) (x := b.getLsbD 0)
    (s := withCell ⟨(byteBits b).take 7, false, o, a⟩ (withCell ⟨(byteBits b).take 7, true, o, a⟩ s))
    h.1 h.2.1 rfl rfl rfl
  have bits : (byteBits b).take 7 ++ [b.getLsbD 0] = byteBits b := rfl
  simp only [bits, byteOf_byteBits, cellCompletes_withCell] at hlast
  rw [cellCompletes_congr (c := ⟨(byteBits b).take 7, false, o, a⟩) (c' := ⟨[], false, o, a⟩) s rfl rfl] at hlast
  rw [bitEdges, runAll_next (exec_fall (h.withCell _) rfl)]
  exact runAll_next hlast

/-- Sixteen clock edges between two bytes are the whole cell (R172). -/
theorem runAll_edges {b o : Byte} {k a : Bool} {s : State} (h : Clocked s) (hc : s.ctl.cell = some ⟨[], k, o, a⟩) :
    runAll ((byteBits b).flatMap bitEdges) s = exec (.byteCell (.whole b)) s := by
  obtain ⟨o', a', hfall⟩ : ∃ o' a', (Cell.mk [] k o a).fall s.ctl.nextOut = ⟨[], false, o', a'⟩ := by
    cases k
    · exact ⟨o, a, rfl⟩
    · exact ⟨_, _, rfl⟩
  have whole : exec (.byteCell (.whole b)) s = .next (settle (cellCompletes b ⟨[], false, o', a'⟩ s)) := by
    rw [exec_byteCell h.1, byteCell, if_pos h.2.1]
    show Host.Outcome.next (settle (wholeCell b s)) = _
    simp only [wholeCell, hc, List.isPrefixOf_nil_left, if_true, hfall]
  have first := exec_rise (x := b.getLsbD 7) (h.withCell ⟨[], false, o', a'⟩) rfl rfl (Nat.zero_lt_succ 6)
  have split : (byteBits b).flatMap bitEdges = .byteCell .fall :: .byteCell (.rise (b.getLsbD 7))
      :: (((byteBits b).drop 1).take 6).flatMap bitEdges ++ bitEdges (b.getLsbD 0) := rfl
  rw [whole, split, List.cons_append, List.cons_append, runAll_next (exec_fall h hc), hfall, runAll_next first]
  exact (runAll_bits h (bitEdges (b.getLsbD 0)) (((byteBits b).drop 1).take 6) [b.getLsbD 7] (List.cons_ne_nil _ _)
    (le_refl 7)).trans (runAll_lastBit h)

/-! ### A cell by the phase of its transaction -/

/-- A whole cell after a complete one, as a row (R172, R176). -/
theorem exec_whole {b o : Byte} {a : Bool} {s : State} (hr : s.inReset = false) (hl : s.ctl.lselLow = true)
    (hc : s.ctl.cell = some ⟨[], true, o, a⟩) :
    exec (.byteCell (.whole b)) s
      = .next (settle (cellCompletes b ⟨[], false, s.ctl.nextOut.1, s.ctl.nextOut.2⟩ s)) := by
  rw [exec_byteCell hr, byteCell_whole b hl hc]

theorem cellCompletes_ignored {b : Byte} {c : Cell} {s : State}
    (h : s.ctl.phase = .closed ∨ s.ctl.phase = .waiting ∨ s.ctl.phase = .trailer) :
    cellCompletes b c s = s.setCtl { s.ctl with cell := some (Cell.complete c.out c.answers) } := by
  unfold cellCompletes
  rcases h with h | h | h <;> simp only [State.setCtl_ctl, h]

theorem cellCompletes_command {b : Byte} {c : Cell} {s : State} (h : s.ctl.phase = .command) :
    cellCompletes b c s = s.setCtl { s.ctl with
      phase := .length, cell := some (Cell.complete c.out c.answers), txn := { s.ctl.txn with command := some b } } := by
  unfold cellCompletes
  simp only [State.setCtl_ctl, h]
  rfl

theorem cellCompletes_length {b : Byte} {c : Cell} {s : State} (h : s.ctl.phase = .length) (h1 : 1 ≤ b.toNat)
    (h64 : b.toNat ≤ 64) :
    cellCompletes b c s = s.setCtl { s.ctl with
      phase := .operands, cell := some (Cell.complete c.out c.answers), txn := { s.ctl.txn with len := some b } } := by
  have long : ¬ (b = 0 ∨ 64 < b.toNat) := by
    rintro (rfl | h)
    · exact absurd h1 (by decide)
    · omega
  unfold cellCompletes
  simp only [State.setCtl_ctl, h, if_neg long]
  rfl

theorem cellCompletes_lastLength {b : Byte} {c : Cell} {s : State} (h : s.ctl.phase = .length)
    (hb : b = 0 ∨ 64 < b.toNat) : cellCompletes b c s = take (s.ctl.txn.command.getD 0) ⟨b, []⟩ s := by
  unfold cellCompletes
  simp only [State.setCtl_ctl, h, if_pos hb]
  rw [← h]
  rfl

theorem cellCompletes_operands {b n : Byte} {c : Cell} {s : State} (h : s.ctl.phase = .operands)
    (hn : s.ctl.txn.len = some n) (hlen : s.ctl.txn.operands.length + 1 < n.toNat) :
    cellCompletes b c s = s.setCtl { s.ctl with
      cell := some (Cell.complete c.out c.answers)
      txn := { s.ctl.txn with operands := s.ctl.txn.operands ++ [b] } } := by
  unfold cellCompletes
  simp only [State.setCtl_ctl, h, hn, Option.getD_some, if_pos hlen]
  rfl

theorem cellCompletes_lastOperand {b n : Byte} {c : Cell} {s : State} (h : s.ctl.phase = .operands)
    (hn : s.ctl.txn.len = some n) (hlen : n.toNat ≤ s.ctl.txn.operands.length + 1) :
    cellCompletes b c s = take (s.ctl.txn.command.getD 0) ⟨n, s.ctl.txn.operands ++ [b]⟩ s := by
  unfold cellCompletes
  simp only [State.setCtl_ctl, h, hn, Option.getD_some, if_neg (show ¬ s.ctl.txn.operands.length + 1 < n.toNat by omega)]
  rw [← h]
  rfl

theorem cellCompletes_answer {b : Byte} {c : Cell} {s : State} (h : s.ctl.phase = .answer) :
    cellCompletes b c s =
      if c.answers then answerByteSent (s.setCtl { s.ctl with cell := some (Cell.complete c.out c.answers) })
      else s.setCtl { s.ctl with cell := some (Cell.complete c.out c.answers) } := by
  unfold cellCompletes
  simp only [State.setCtl_ctl, h]

/-- The bit a cell presents: the one its clock edges have come to (R172). -/
theorem ldo_eq {c : Cell} {s : State} (h : s.ctl.cell = some c) : s.ldo = some (c.out.getLsbD
    (if c.clock = false then 7 - c.bits.length else if c.bits = [] then 0 else 8 - c.bits.length)) := by
  unfold State.ldo Cell.ldo
  rw [h]
  obtain ⟨bits, clock, out, answers⟩ := c
  cases clock with
  | false => rfl
  | true =>
    cases bits with
    | nil => simp
    | cons x xs =>
      have place : (8 - (x :: xs).length) % 8 = 8 - (x :: xs).length := Nat.mod_eq_of_lt (by
        rw [List.length_cons]
        omega)
      simp only [Option.map_some, if_true, place, Bool.true_eq_false, if_false, reduceCtorEq]

/-- Settles O8: the cell whole and edge by edge, then phase by phase, then one edge at a time. -/
theorem byteCellMovesThePhase : Obligations.ByteCellMovesThePhase := by
  refine ⟨fun s hr hhigh p => ?_, fun s b o k a hr hl hc => ⟨?_, fun hk => ?_⟩, fun s c hr hl hc => ?_,
    fun s hc => ⟨?_, fun hr p => ?_⟩⟩
  · rw [exec_byteCell hr, byteCell_high p hhigh]
  · exact runAll_edges ⟨hr, hl, settle_settle s⟩ hc
  · subst hk
    have row := exec_whole (b := b) hr hl hc
    refine ⟨fun hp => ?_, fun hp => ?_, fun hp h1 h64 => ?_, fun n hp hn hlen => ?_, fun hp => ?_,
      fun next hp hlen hnext => ?_, fun hp hlen => ?_⟩
    · have out : s.ctl.nextOut = (0xFF, false) := by
        unfold Ctl.nextOut
        rcases hp with hp | hp <;> rw [hp]
      rw [row, out, cellCompletes_ignored (hp.imp_right .inr)]
      rfl
    · rw [row, cellCompletes_command hp, Ctl.nextOut, hp]
      rfl
    · rw [row, cellCompletes_length hp h1 h64, Ctl.nextOut, hp]
      rfl
    · rw [row, cellCompletes_operands hp hn hlen, Ctl.nextOut, hp]
      rfl
    · rw [row, cellCompletes_ignored (.inr (.inl hp)), Ctl.nextOut, hp]
      rfl
    · have out : s.ctl.nextOut = (next, true) := by
        rw [Ctl.nextOut, hp]
        simp only [List.getD_eq_getElem?_getD, hnext, Option.getD_some]
      rw [row, out, cellCompletes_answer hp, if_pos rfl]
      show Host.Outcome.next (settle (ite (s.ctl.txn.sent + 1 < s.ctl.txn.answer.length) _ _)) = _
      rw [if_pos hlen]
      rfl
    · have out : s.ctl.nextOut.2 = true := by rw [Ctl.nextOut, hp]
      have complete : exec .completeDelivery s = .next (settle (completeAnswer s)) := by
        refine (live_next hr).trans ?_
        rw [clockOutAnswer, if_pos ⟨hl, hp⟩]
      rw [row, cellCompletes_answer hp, if_pos out, complete]
      show Host.Outcome.next (settle (ite (s.ctl.txn.sent + 1 < s.ctl.txn.answer.length) _ _)) = _
      rw [if_neg (by omega)]
      rfl
  · have rise (x : Bool) : byteCell (.rise x) s = clockRises x s := if_pos hl
    have fall : byteCell .fall s = withCell (c.fall s.ctl.nextOut) s := by
      refine (if_pos hl).trans ?_
      show clockFalls s = _
      rw [clockFalls, hc]
      rfl
    have same : withCell c s = s := by
      rw [withCell, ← hc]
      rfl
    refine ⟨ldo_eq hc, fun x hk => ?_, fun x hk hb => ?_, fun hk => ?_, fun hk hb => ?_, fun hk hb => ?_,
      fun b hb hpre hans hp => ?_⟩
    · rw [exec_byteCell hr, rise, clockRises, hc]
      simp only [hk, if_true]
    · rw [exec_byteCell hr, rise, clockRises, hc]
      simp only [hk, Bool.false_eq_true, if_false, if_pos hb]
      rfl
    · rw [exec_byteCell hr, fall, Cell.fall, if_neg (by rw [hk]; nofun), same]
    · rw [exec_byteCell hr, fall, Cell.fall, if_pos hk, if_neg hb]
      rfl
    · rw [exec_byteCell hr, fall, Cell.fall, if_pos hk, if_pos hb, Ctl.nextOut]
      cases s.ctl.phase <;> rfl
    · have kept : (c.fall s.ctl.nextOut).out = c.out ∧ (c.fall s.ctl.nextOut).answers = c.answers := by
        unfold Cell.fall
        rcases hb with hb | hb
        · rw [if_neg (by rw [hb]; nofun)]
          exact ⟨rfl, rfl⟩
        · rw [if_neg hb]
          split <;> exact ⟨rfl, rfl⟩
      have whole : byteCell (.whole b) s = cellCompletes b (c.fall s.ctl.nextOut) s := by
        refine (if_pos hl).trans ?_
        show wholeCell b s = _
        simp only [wholeCell, hc, hpre, if_true]
      rw [exec_byteCell hr, whole, cellCompletes_answer hp, kept.1, kept.2, hans]
      rfl
  · rw [State.ldo, hc]
    rfl
  · rw [exec_byteCell hr, byteCell_noCell p hc]

/-! ### A frame as its row -/

theorem exec_takenRow (c : Cmd) (f : Frame) (s : State) : exec (takenRow c f) s = live (commandTaken c.code f) s := by
  cases c <;> rfl

/-! Activity events read and change nothing of the link. -/

theorem setCtl_ite (p : Prop) [Decidable p] (c : Ctl) (s t : State) :
    (if p then s else t).setCtl c = if p then s.setCtl c else t.setCtl c :=
  apply_ite (State.setCtl · c) p s t

theorem panelTurnOn_setCtl (c : Ctl) (s : State) : panelTurnOn (s.setCtl c) = (panelTurnOn s).setCtl c := by
  unfold panelTurnOn
  rw [setCtl_ite]
  rfl

theorem abortSleepEntry_setCtl (c : Ctl) (s : State) : abortSleepEntry (s.setCtl c) = (abortSleepEntry s).setCtl c := by
  unfold abortSleepEntry
  rw [setCtl_ite, ← panelTurnOn_setCtl]
  rfl

theorem refreshTimerMoves_setCtl (p : PowerState) (c : Ctl) (s : State) :
    refreshTimerMoves p (s.setCtl c) = (refreshTimerMoves p s).setCtl c := by
  unfold refreshTimerMoves
  rw [setCtl_ite]
  rfl

theorem activity_setCtl (c : Ctl) (s : State) : activity (s.setCtl c) = (activity s).setCtl c := by
  unfold activity
  rw [setCtl_ite, ← abortSleepEntry_setCtl]
  refine if_congr Iff.rfl rfl ?_
  rw [State.setCtl_pwu]
  cases s.pwu.power with
  | run => rfl
  | dim => exact refreshTimerMoves_setCtl .run c (s.setPwu s.pwu.toRun)
  | dark => exact panelTurnOn_setCtl c (s.setPwu s.pwu.toRun)
  | sleep => rfl

theorem takingActivity_setCtl (c : Ctl) (s : State) : takingActivity (s.setCtl c) = (takingActivity s).setCtl c := by
  unfold takingActivity activityIf
  rw [setCtl_ite, ← activity_setCtl]
  rfl

theorem takingActivity_ctl (s : State) : (takingActivity s).ctl = s.ctl := by
  obtain ⟨l, d, p, h⟩ := activityIf_frame s.pwu.linkActivity s
  rw [takingActivity, h]
  rfl

theorem abortSleepEntry_ctl (s : State) : (abortSleepEntry s).ctl = s.ctl := (effect_abortSleepEntry s).ctl

/-- The part with its transaction in this phase. -/
def withPhase (ph : Phase) (s : State) : State := s.setCtl { s.ctl with phase := ph }

theorem takingActivity_withPhase (ph : Phase) (s : State) :
    takingActivity (withPhase ph s) = withPhase ph (takingActivity s) := by
  rw [withPhase, takingActivity_setCtl, withPhase, takingActivity_ctl]

theorem abortSleepEntry_withPhase (ph : Phase) (s : State) :
    abortSleepEntry (withPhase ph s) = withPhase ph (abortSleepEntry s) := by
  rw [withPhase, abortSleepEntry_setCtl, withPhase, abortSleepEntry_ctl]

/-! Every answer and every wait sets the phase, so the one in which a frame completes does not matter. -/

theorem toOwner_withPhase (ph : Phase) (c : Cmd) (ops : List Byte) (s : State) :
    toOwner c ops false (withPhase ph s) = toOwner c ops false s := rfl

theorem toLaneSet_withPhase (ph : Phase) (ops : List Byte) (s : State) :
    toLane .laneSet ops false (takeLaneSet ops (withPhase ph s)) (withPhase ph s)
      = toLane .laneSet ops false (takeLaneSet ops s) s := by
  have busy : loadAllInFlight (withPhase ph s) = loadAllInFlight s := rfl
  unfold takeLaneSet
  rw [busy]
  split
  · rfl
  · split <;> rfl

theorem toLaneEnable_withPhase (ph : Phase) (ops : List Byte) (s : State) :
    toLane .laneEnable ops false (takeLaneEnable ops (withPhase ph s)) (withPhase ph s)
      = toLane .laneEnable ops false (takeLaneEnable ops s) s := by
  have busy : loadAllInFlight (withPhase ph s) = loadAllInFlight s := rfl
  unfold takeLaneEnable
  rw [busy]
  split
  · rfl
  · split <;> rfl

theorem handOver_withPhase (ph : Phase) (c : Cmd) (ops : List Byte) (s : State) :
    handOver c ops false (withPhase ph s) = handOver c ops false s := by
  cases c with
  | laneSet =>
    simp only [handOver, takingActivity_withPhase]
    exact toLaneSet_withPhase ph ops _
  | laneEnable =>
    simp only [handOver, takingActivity_withPhase]
    exact toLaneEnable_withPhase ph ops _
  | powerSet => rfl
  | _ =>
    simp only [handOver, takingActivity_withPhase]
    exact toOwner_withPhase ph _ ops _

theorem judge_withPhase (byte : Byte) (f : Frame) (ph : Phase) (s : State) :
    judge byte f false (withPhase ph s) = judge byte f false s := by
  unfold judge
  simp only [abortSleepEntry_withPhase]
  have link : (withPhase ph (abortSleepEntry s)).ctl.link = (abortSleepEntry s).ctl.link := rfl
  rw [link]
  split
  · rw [takingActivity_withPhase]
    rfl
  · exact handOver_withPhase ph _ _ _

/-- A command is taken alike from every phase and cell of its transaction: only the frame and the rest of the link matter. -/
theorem take_afresh (byte : Byte) (f : Frame) {c : Ctl} {s : State}
    (h : { c with phase := s.ctl.phase, txn := s.ctl.txn, cell := s.ctl.cell } = s.ctl) :
    take byte f (s.setCtl c) = take byte f s := by
  have recorded : (s.setCtl { c with txn := Txn.ofFrame byte f, cell := some (Cell.complete 0xFF false) })
      = withPhase c.phase (s.setCtl { s.ctl with txn := Txn.ofFrame byte f, cell := some (Cell.complete 0xFF false) }) := by
    rw [← h]
    rfl
  unfold take
  show (if s.pwu.power = .sleep then _ else judge byte f false (s.setCtl { c with
    txn := Txn.ofFrame byte f, cell := some (Cell.complete 0xFF false) })) = _
  rw [recorded, judge_withPhase]
  refine if_congr Iff.rfl ?_ rfl
  rw [← h]
  rfl

/-- A frame that begins an open transaction is taken (R173). -/
theorem commandTaken_fresh {byte : Byte} {f : Frame} {s : State} (hl : s.ctl.lselLow = true) (hp : s.ctl.phase = .command)
    (ht : s.ctl.txn = Txn.empty) (hc : s.ctl.cell = some ⟨[], false, 0xFF, false⟩) (hf : f.wellFormed = true) :
    commandTaken byte f s = take byte f s := by
  rw [commandTaken, if_pos]
  refine ⟨hl, by rw [hp]; rfl, hf, ?_⟩
  have none_yet : s.ctl.received = [] := by
    rw [Ctl.received, ht, hc]
    rfl
  rw [none_yet]
  rfl

/-- The part inside the frame of a command: in this phase, with the length and the operands it has had so far. -/
def inFrame (byte : Byte) (ph : Phase) (len : Option Byte) (got : List Byte) (s : State) : State :=
  s.setCtl { s.ctl with
    phase := ph, cell := some (Cell.complete 0xFF false), txn := ⟨some byte, len, got, [], 0, false, false⟩ }

theorem settle_inFrame {byte : Byte} {ph : Phase} {len : Option Byte} {got : List Byte} {s : State} (hs : settle s = s) :
    settle (inFrame byte ph len got s) = inFrame byte ph len got s := by
  have moved : settle (inFrame byte ph len got s) = inFrame byte ph len got (settle s) := settle_setCtl rfl
  rw [moved, hs]

theorem take_inFrame (byte : Byte) (f : Frame) (ph : Phase) (len : Option Byte) (got : List Byte) (s : State) :
    take byte f (inFrame byte ph len got s) = take byte f s := take_afresh byte f rfl

theorem exec_whole_inFrame {byte b : Byte} {ph : Phase} {len : Option Byte} {got : List Byte} {s : State}
    (hr : s.inReset = false) (hl : s.ctl.lselLow = true) (hp : ph = .length ∨ ph = .operands) :
    exec (.byteCell (.whole b)) (inFrame byte ph len got s)
      = .next (settle (cellCompletes b ⟨[], false, 0xFF, false⟩ (inFrame byte ph len got s))) := by
  have row := exec_whole (b := b) (s := inFrame byte ph len got s) hr hl rfl
  rcases hp with rfl | rfl <;> exact row

/-- The operand cells of a frame, from the bytes `got` on (R173). -/
theorem runAll_operands {byte n : Byte} {s : State} (hr : s.inReset = false) (hl : s.ctl.lselLow = true)
    (hs : settle s = s) (rest : List Byte) : ∀ got : List Byte, rest ≠ [] → (got ++ rest).length = n.toNat →
      runAll (rest.map fun b => .byteCell (.whole b)) (inFrame byte .operands (some n) got s)
        = .next (settle (take byte ⟨n, got ++ rest⟩ s)) := by
  induction rest with
  | nil => exact fun _ h => absurd rfl h
  | cons b rest ih =>
    intro got _ hlen
    have row := exec_whole_inFrame (byte := byte) (b := b) (len := some n) (got := got) hr hl (.inr rfl)
    cases rest with
    | nil =>
      rw [cellCompletes_lastOperand (s := inFrame byte .operands (some n) got s) rfl rfl
        (by rw [← hlen, List.length_append]; exact le_rfl)] at row
      rw [List.map_cons, runAll_next row]
      exact congrArg (fun t => Host.Outcome.next (settle t)) (take_inFrame byte _ _ _ _ s)
    | cons b' rest =>
      have more : cellCompletes b ⟨[], false, 0xFF, false⟩ (inFrame byte .operands (some n) got s)
          = inFrame byte .operands (some n) (got ++ [b]) s :=
        cellCompletes_operands (s := inFrame byte .operands (some n) got s) rfl rfl (by
          rw [← hlen, List.length_append, List.length_cons, List.length_cons]
          show got.length + 1 < _
          omega)
      rw [more, settle_inFrame hs] at row
      rw [List.map_cons, runAll_next row, List.append_cons got b (b' :: rest)]
      exact ih (got ++ [b]) (List.cons_ne_nil _ _) (by rwa [← List.append_cons])

/-- The byte cells of a frame take its command (R173, R174). -/
theorem runAll_frame {byte : Byte} {f : Frame} {s : State} (hr : s.inReset = false) (hl : s.ctl.lselLow = true)
    (hp : s.ctl.phase = .command) (ht : s.ctl.txn = Txn.empty) (hc : s.ctl.cell = some ⟨[], false, 0xFF, false⟩)
    (hs : settle s = s) (hf : f.wellFormed = true) :
    runAll ((f.bytes byte).map fun b => .byteCell (.whole b)) s = live (commandTaken byte f) s := by
  obtain ⟨-, hshort, hlong⟩ := Laws.wellFormed_frame hf
  have first : exec (.byteCell (.whole byte)) s = .next (inFrame byte .length none [] s) := by
    have whole : byteCell (.whole byte) s = cellCompletes byte ⟨[], false, 0xFF, false⟩ s := by
      refine (if_pos hl).trans ?_
      show wholeCell byte s = _
      simp only [wholeCell, hc, List.isPrefixOf_nil_left, if_true]
      rfl
    have named : cellCompletes byte ⟨[], false, 0xFF, false⟩ s = inFrame byte .length none [] s := by
      rw [cellCompletes_command hp, ht]
      rfl
    rw [exec_byteCell hr, whole, named, settle_inFrame hs]
  have row := exec_whole_inFrame (byte := byte) (b := f.len) (len := none) (got := []) hr hl (.inl rfl)
  rw [live_next hr, commandTaken_fresh hl hp ht hc hf, Frame.bytes, List.map_cons, runAll_next first, List.map_cons]
  by_cases hb : f.len = 0 ∨ 64 < f.len.toNat
  · have bare : f.operands = [] := by
      rcases hb with hb | hb
      · exact List.eq_nil_of_length_eq_zero (by rw [hshort (by rw [hb]; decide), hb]; rfl)
      · exact hlong hb
    rw [cellCompletes_lastLength (s := inFrame byte .length none [] s) rfl hb] at row
    rw [bare, List.map_nil, runAll_next row]
    have same : (⟨f.len, []⟩ : Frame) = f := by rw [← bare]
    rw [same]
    exact congrArg (fun t => Host.Outcome.next (settle t)) (take_inFrame byte _ _ _ _ s)
  · obtain ⟨hz, h64⟩ := not_or.1 hb
    have positive : 1 ≤ f.len.toNat := Nat.one_le_iff_ne_zero.2 fun h => hz (BitVec.eq_of_toNat_eq h)
    have length := hshort (by omega)
    have measured : cellCompletes f.len ⟨[], false, 0xFF, false⟩ (inFrame byte .length none [] s)
        = inFrame byte .operands (some f.len) [] s := cellCompletes_length rfl positive (by omega)
    rw [measured, settle_inFrame hs] at row
    rw [runAll_next row]
    refine runAll_operands hr hl hs f.operands [] (fun h => ?_) length
    rw [h] at length
    rw [← length] at positive
    exact absurd positive (by decide)

/-- Settles O9: the cells of the frame, of a command or of a byte that names none, are its row. -/
theorem byteCellsSpellTheRow : Obligations.ByteCellsSpellTheRow := fun s f hr hl hp ht hc hs hf =>
  ⟨fun c => (runAll_frame hr hl hp ht hc hs hf).trans (exec_takenRow c f s).symm,
    fun _ _ => runAll_frame hr hl hp ht hc hs hf⟩

end Sys2Proof.Machine
end

section
/-! SUPPORT. The bytes of answers, spelled from R196 and R198: numbers, keys, values and codes. -/

namespace Sys2Proof.Machine

theorem beBytes_two (n : Nat) : beBytes 2 n = twoBytes n := by
  simp [beBytes, twoBytes]

theorem beBytes_four (n : Nat) : beBytes 4 n = fourBytes n := by
  simp [beBytes, fourBytes, twoBytes, Nat.div_div_eq_div_mul]

/-- Only the low sixteen bits of a number enter its two bytes. -/
theorem twoBytes_congr {n m : Nat} (h : n % 65536 = m % 65536) : twoBytes n = twoBytes m := by
  have high : BitVec.ofNat 8 (n / 256) = BitVec.ofNat 8 (m / 256) := BitVec.eq_of_toNat_eq (by
    simp only [BitVec.toNat_ofNat]
    omega)
  have low : BitVec.ofNat 8 n = BitVec.ofNat 8 m := BitVec.eq_of_toNat_eq (by
    simp only [BitVec.toNat_ofNat]
    omega)
  rw [twoBytes, twoBytes, high, low]

theorem keyBytes_eq (k : Key) : k.bytes = keyBytes k := by
  have register := k.register.isLt
  rw [Key.bytes, beBytes_four, fourBytes, keyBytes]
  congr 1 <;> exact twoBytes_congr (by omega)

theorem boolByte_eq (b : Bool) : boolByte b = BitVec.ofNat 8 (oneIf b) := by
  cases b <;> rfl

theorem optWordBytes_eq (v : Option Word) : optWordBytes v = valueBytes v := by
  cases v with
  | none => rfl
  | some v => exact beBytes_four _

theorem bitAt_eq (n : Nat) (b : Bool) : bitAt n b = 2 ^ n * oneIf b := by
  cases b <;> simp [bitAt, oneIf]

theorem resetCause_code (c : ResetCause) : c.code = BitVec.ofNat 8 (causeCode c) := by cases c <;> rfl

theorem validity_code (v : Validity) : v.code = BitVec.ofNat 8 (resultCode v) := by cases v <;> rfl

theorem trapMode_code (m : TrapMode) : m.code = BitVec.ofNat 8 (trapModeCode m) := by cases m <;> rfl

theorem trapDir_code (d : TrapDir) : d.code = BitVec.ofNat 8 (trapDirCode d) := by cases d <;> rfl

theorem wakeEdge_code (e : WakeEdge) : e.code = wakeEdgeCode e := by cases e <;> rfl

theorem profileOp_code (o : ProfileOp) : o.code = BitVec.ofNat 8 (operationCodes o).1 := by
  cases o with
  | none => rfl
  | load l =>
    obtain ⟨scope, _, _, _, _, _, _⟩ := l
    cases scope <;> rfl
  | store _ => rfl

theorem profileOp_stageByte (o : ProfileOp) : o.stageByte = BitVec.ofNat 8 (operationCodes o).2 := by
  cases o with
  | none => rfl
  | load l => rfl
  | store stage => cases stage <;> rfl

theorem resetRecord_bytes (r : ResetRecord) : r.bytes
    = [BitVec.ofNat 8 (causeCode r.cause), BitVec.ofNat 8 (resultCode r.result)] ++ beBytes 2 r.loaded
      ++ beBytes 2 r.skipped := by
  rw [ResetRecord.bytes, resetCause_code, validity_code]

/-- The cause set as a number: WATCH is bit 0, given by the slots (R132). -/
theorem causeSet_toNat (w : Wta) : w.causeSet.toNat = 2 * (w.causes.toNat / 2) + oneIf (w.slots.toList.any Slot.waits) := by
  have set : ∀ c : BitVec 9, ((c &&& ~~~Cause.watch.bit) ||| Cause.watch.bit).toNat = 2 * (c.toNat / 2) + 1 := by
    decide +kernel
  have clear : ∀ c : BitVec 9, ((c &&& ~~~Cause.watch.bit) ||| 0).toNat = 2 * (c.toNat / 2) + 0 := by decide +kernel
  unfold Wta.causeSet
  cases w.slots.toList.any Slot.waits with
  | true => exact set w.causes
  | false => exact clear w.causes

theorem causeBytes_eq (w : Wta) : setBytes w.causeSet = causeBytes w := by
  have waits : (fun x : Slot => match x with
      | .pending .. | .detached .. => true
      | .free | .armed _ => false) = Slot.waits := by
    funext x
    cases x <;> rfl
  rw [setBytes, beBytes_two, causeSet_toNat, ← waits]
  rfl

theorem setBytes_eq (c : BitVec 9) : setBytes c = twoBytes c.toNat := beBytes_two _

/-- The 16 bytes of PROFILE-STATUS (R198). -/
theorem profileBytes_eq (p : Pim) :
    [p.op.code, p.op.stageByte] ++ p.op.progressBytes ++ lastBytes p.last = profileBytes p := by
  have progress : p.op.progressBytes = (match p.op with
      | .load ⟨_, _, some v, _, loaded, skipped, _⟩ =>
        [1, BitVec.ofNat 8 (resultCode v)] ++ twoBytes loaded ++ twoBytes skipped
      | _ => [0, 0, 0, 0, 0, 0]) := by
    cases p.op with
    | none => rfl
    | store _ => rfl
    | load l =>
      obtain ⟨_, _, validity, _, _, _, _⟩ := l
      cases validity with
      | none => rfl
      | some v => simp only [ProfileOp.progressBytes, validity_code, beBytes_two]
  have last : lastBytes p.last = (match p.last with
      | none => [0, 0, 0, 0, 0, 0, 0, 0]
      | some (.load scope v loaded skipped) =>
        [1, match scope with
          | .startUp => 0
          | .seeds => 1
          | .all => 2,
        BitVec.ofNat 8 (resultCode v)] ++ twoBytes loaded ++ twoBytes skipped ++ [0]
      | some (.store failed seeds truncated) =>
        [1, 3, BitVec.ofNat 8 (oneIf failed)] ++ twoBytes seeds ++ [0, 0, BitVec.ofNat 8 (oneIf truncated)]) := by
    cases p.last with
    | none => rfl
    | some o =>
      cases o with
      | load scope v loaded skipped =>
        simp only [lastBytes, validity_code, beBytes_two]
        cases scope <;> rfl
      | store failed seeds truncated =>
        simp only [lastBytes, boolByte_eq, beBytes_two, List.append_assoc]
        rfl
  rw [progress, last, profileOp_code, profileOp_stageByte]
  rfl

/-- The 16 bytes of a trap window (R198). -/
theorem windowBytes_eq (t : Trap) : t.bytes = windowBytes t := by
  unfold Trap.bytes windowBytes
  rw [trapMode_code, trapDir_code]
  cases t.first with
  | none =>
    have zeros : [boolByte (none : Option Key).isSome] ++ absent4 = [0, 0, 0, 0, 0] := rfl
    simp only [beBytes_two, byteOf, Option.elim_none, List.append_assoc, zeros]
  | some k => simp [beBytes_two, byteOf, keyBytes_eq, boolByte]

end Sys2Proof.Machine
end

section
/-! The taking of commands and the service rotation: O11, O12, O13 and O15. -/

namespace Sys2Proof.Machine

/-! ### Link-level checks -/

theorem exec_refused {c : Cmd} {f : Frame} {st : Status} {s : State} (h : Opened s) (hp : s.pwu.power = .run)
    (hf : f.wellFormed = true) (hc : linkCheck c.code f s.ctl.link = .error st) (hst : st ≠ .ok) :
    exec (takenRow c f) s = .next (settle (answeredAtOnce c.code f ⟨st, []⟩ s)) := by
  have ⟨running, _⟩ := h
  rw [exec_takenRow, live_next running, commandTaken_refused h hp hf hc hst]

/-- Settles O11: each check is the first that fails. -/
theorem linkLevelChecks : Obligations.LinkLevelChecks := by
  intro s f h hp hf
  have ⟨running, _⟩ := h
  refine ⟨fun byte hb => ?_, fun c hk hi hr => ?_, fun c hk hl => ?_⟩
  · have unknown : linkCheck byte f s.ctl.link = .error .unknown := by simp only [linkCheck, hb]
    exact (live_next running).trans (by rw [commandTaken_refused h hp hf unknown nofun])
  · exact exec_refused h hp hf (by simp [linkCheck, ofByte_code, hk, hi, hr]) nofun
  · have passes : ¬ (s.ctl.link = .held ∧ c ≠ .identify ∧ c ≠ .release) := by
      rintro ⟨held, hi, hr⟩
      rcases hk with hk | hk | hk
      · exact absurd (held.symm.trans hk) nofun
      · exact hi hk
      · exact hr hk
    exact exec_refused h hp hf (by simp [linkCheck, ofByte_code, passes, hl]) nofun

/-! ### Activity -/

/-- The power state, the timer, the deferred mark and the settings that an activity event reads. -/
structure SameChain (p q : Pwu) : Prop where
  power : q.power = p.power := by rfl
  op : q.op = p.op := by rfl
  timer : q.timer = p.timer := by rfl
  deferred : q.deferred = p.deferred := by rfl
  dim : q.dim = p.dim := by rfl

/-- RUN with the dim timer fresh and no expiry deferred (R159, R160). -/
structure Fresh (dim : Nat) (p : Pwu) : Prop where
  power : p.power = .run
  op : p.op = .none
  timer : p.timer = startTimer .dim dim
  deferred : p.deferred = false
  dim : p.dim = dim

theorem SameChain.fresh {p q : Pwu} {n : Nat} (h : SameChain p q) (hp : Fresh n p) : Fresh n q :=
  ⟨h.power.trans hp.power, h.op.trans hp.op, h.timer.trans hp.timer, h.deferred.trans hp.deferred, h.dim.trans hp.dim⟩

theorem fresh_toRun (p : Pwu) : Fresh p.dim p.toRun := ⟨rfl, rfl, rfl, rfl, rfl⟩

theorem panelTurnOn_pwu (s : State) : (panelTurnOn s).pwu = s.pwu := by
  obtain ⟨d, hd⟩ := panelTurnOn_dse s
  rw [hd]
  rfl

/-- An activity event out of SLEEP leaves the part in RUN with the dim timer fresh (R160). -/
theorem activity_pwu {s : State} (h : s.pwu.power ≠ .sleep) : (activity s).pwu = s.pwu.toRun := by
  unfold activity abortSleepEntry
  split
  · rw [panelTurnOn_pwu]
    rfl
  · cases hp : s.pwu.power with
    | run => rfl
    | dim =>
      simp only [refreshTimerMoves_eq]
      rfl
    | dark => exact panelTurnOn_pwu _
    | sleep => exact absurd hp h

theorem fresh_activityIf {n : Nat} {s : State} (b : Bool) (h : Fresh n s.pwu) : Fresh n (activityIf b s).pwu := by
  cases b with
  | false => exact h
  | true =>
    have power := h.power
    rw [activityIf, if_pos rfl, activity_pwu (by rw [power]; nofun)]
    exact h.dim ▸ fresh_toRun s.pwu

theorem fresh_movePfe {n : Nat} {x : Pfe} {s : State} (h : Fresh n s.pwu) : Fresh n (movePfe x s).pwu := by
  have walk (before after : Levels) (is : List (Fin 4)) (t : State) (ht : Fresh n t.pwu) :
      Fresh n (is.foldl (offerTo before after) t).pwu := by
    induction is generalizing t with
    | nil => exact ht
    | cons i is ih =>
      refine ih _ (fresh_activityIf _ ?_)
      rw [raiseIf_eq]
      exact ht
  unfold movePfe offer
  split
  · exact h
  · exact walk _ _ _ _ h

theorem SameChain.of_eq {p q : Pwu} (h : q = p) : SameChain p q := h ▸ {}

theorem unbind_pwu (i : Fin 8) (s : State) : (unbind i s).pwu = s.pwu := by
  unfold unbind
  cases (s.wta.slots[i]).boundKey <;> rfl

/-- A command its owner serves as it is handed over leaves the power chain, but for the edges of a PROBE-SET and the settings
of a POWER-SET. -/
theorem serve_sameChain {c : Cmd} {ops : List Byte} {s : State} (hr : readyAtOnce c ops s = true) (h1 : c ≠ .probeSet)
    (h2 : c ≠ .powerSet) (t : State) : SameChain t.pwu (serve c ops t).1.pwu := by
  cases c with
  | identify => exact {}
  | release => exact {}
  | status => exact {}
  | restart => exact {}
  | profileStatus => exact {}
  | acknowledge =>
    show SameChain _ (serveAcknowledge ops t).1.pwu
    unfold serveAcknowledge
    split
    · exact {}
    · rw [acknowledge_eq]
      exact {}
  | attnEnable =>
    show SameChain _ (serveAttnEnable ops t).1.pwu
    unfold serveAttnEnable attnEnable
    cases maskOf ops <;> exact {}
  | watchFree =>
    show SameChain _ (serveWatchFree ops t).1.pwu
    unfold serveWatchFree
    split
    · exact {}
    · exact .of_eq (unbind_pwu _ t)
  | takeWatch =>
    show SameChain _ (serveTakeWatch ops t).1.pwu
    unfold serveTakeWatch
    split
    · exact {}
    · split <;> exact {}
  | trapRead =>
    show SameChain _ (serveTrapRead ops t).1.pwu
    unfold serveTrapRead
    split
    · dsimp only
      split <;> exact {}
    · exact {}
  | viewSet =>
    show SameChain _ (serveViewSet ops t).1.pwu
    unfold serveViewSet
    split
    · next u _ h _ =>
      have same : u.pwu = t.pwu := by
        unfold viewSet at h
        split at h <;> cases h
        rfl
      exact .of_eq same
    · exact {}
  | viewOptions => exact {}
  | panelSet => exact {}
  | powerStatus =>
    show SameChain _ (servePowerStatus ops t).1.pwu
    unfold servePowerStatus
    split
    · exact {}
    · dsimp only
      split <;> exact {}
  | profileLoad =>
    show SameChain _ (serveProfileLoad ops t).1.pwu
    unfold serveProfileLoad
    split
    · exact {}
    · split <;> exact {}
  | profileStore =>
    show SameChain _ (serveProfileStore t).1.pwu
    unfold serveProfileStore
    split <;> exact {}
  | laneStatus =>
    show SameChain _ (serveLaneStatus ops t).1.pwu
    have none : laneOf (byteAt ops 0) = none := by simpa [readyAtOnce] using hr
    simp only [serveLaneStatus, none]
    exact {}
  | probeSet => exact absurd rfl h1
  | powerSet => exact absurd rfl h2
  | _ => cases hr

theorem serveProbeSet_fresh {n : Nat} {ops : List Byte} {s : State} (h : Fresh n s.pwu) :
    Fresh n (serve .probeSet ops s).1.pwu := by
  show Fresh n (serveProbeSet ops s).1.pwu
  unfold serveProbeSet
  split
  · exact h
  · exact fresh_movePfe h

/-- The part is in RUN afresh, or its power chain stands (R160, R174). -/
structure Hearing (c : Cmd) (s t : State) : Prop where
  active : s.pwu.linkActivity = true → Fresh s.pwu.dim t.pwu
  idle : s.pwu.linkActivity = false → c ≠ .probeSet → SameChain s.pwu t.pwu

theorem takingActivity_hearing (c : Cmd) {s : State} (h : s.pwu.power ≠ .sleep) : Hearing c s (takingActivity s) := by
  unfold takingActivity activityIf
  refine ⟨fun hk => ?_, fun hk _ => ?_⟩
  · rw [if_pos hk, activity_pwu h]
    exact fresh_toRun s.pwu
  · rw [if_neg (by rw [hk]; nofun)]
    exact {}

theorem Hearing.then {c : Cmd} {s t u : State} (h : Hearing c s t) (hs : c ≠ .probeSet → SameChain t.pwu u.pwu)
    (hf : c = .probeSet → ∀ n, Fresh n t.pwu → Fresh n u.pwu) : Hearing c s u := by
  refine ⟨fun hk => ?_, fun hk hc => ?_⟩
  · by_cases hc : c = .probeSet
    · exact hf hc _ (h.active hk)
    · exact (hs hc).fresh (h.active hk)
  · obtain ⟨h1, h2, h3, h4, h5⟩ := h.idle hk hc
    obtain ⟨g1, g2, g3, g4, g5⟩ := hs hc
    exact ⟨g1.trans h1, g2.trans h2, g3.trans h3, g4.trans h4, g5.trans h5⟩

theorem toLane_sameChain {c : Cmd} {ops : List Byte} {r : Except Status State} {s : State}
    (h : ∀ t, r = .ok t → t.pwu = s.pwu) : SameChain s.pwu (toLane c ops false r s).pwu := by
  cases r with
  | error st => exact {}
  | ok t => exact .of_eq (h t rfl)

/-- A command handed to an owner whose queue is empty: its service as it is handed over, or its wait. -/
theorem toOwner_hearing {c : Cmd} {ops : List Byte} {s : State} (hr : s.inReset = false) (hc : c ≠ .powerSet)
    (hfree : ∀ w ∈ s.ctl.waiting, ownerOf w.cmd w.operands ≠ ownerOf c ops) :
    (c ≠ .probeSet → SameChain s.pwu (toOwner c ops false s).pwu)
      ∧ (c = .probeSet → ∀ n, Fresh n s.pwu → Fresh n (toOwner c ops false s).pwu) := by
  cases hready : readyAtOnce c ops (enqueue ⟨c, ops, false⟩ s) with
  | false =>
    rw [toOwner_waits false hfree hready]
    exact ⟨fun _ => {}, fun _ _ => id⟩
  | true =>
    have served := effect_serve c ops (s := s.setCtl { s.ctl with phase := .waiting }) hr
    rw [toOwner_ready hfree hready (by rw [served.ctl]; rfl)]
    refine ⟨fun h1 => serve_sameChain hready h1 hc (s.setCtl { s.ctl with phase := .waiting }), ?_⟩
    rintro rfl n hn
    exact serveProbeSet_fresh (s := s.setCtl { s.ctl with phase := .waiting }) hn

theorem handOver_hearing {c : Cmd} {ops : List Byte} {s : State} (hr : s.inReset = false) (hc : c ≠ .powerSet)
    (hp : s.pwu.power ≠ .sleep) (hfree : ∀ w ∈ s.ctl.waiting, ownerOf w.cmd w.operands ≠ ownerOf c ops) :
    Hearing c s (handOver c ops false s) := by
  have active := takingActivity_hearing c hp
  have free : ∀ w ∈ (takingActivity s).ctl.waiting, ownerOf w.cmd w.operands ≠ ownerOf c ops := by
    rw [takingActivity_ctl]
    exact hfree
  have running := (effect_takingActivity hr).inReset.trans hr
  have owner := toOwner_hearing running hc free
  cases c with
  | laneSet =>
    refine active.then (fun _ => toLane_sameChain fun t ht => ?_) nofun
    unfold takeLaneSet at ht
    split at ht
    · cases ht
    · split at ht <;> cases ht
      rfl
  | laneEnable =>
    refine active.then (fun _ => toLane_sameChain fun t ht => ?_) nofun
    unfold takeLaneEnable at ht
    split at ht
    · cases ht
    · split at ht <;> cases ht
      rfl
  | powerSet => exact absurd rfl hc
  | _ => exact active.then owner.1 owner.2

/-- Settles O12: the activity event precedes the service, which leaves the power chain but for a PROBE-SET's edges. -/
theorem takingIsAnActivityEvent : Obligations.TakingIsAnActivityEvent := by
  intro s c ops h hk hl hfree hc
  have ⟨running, _, _, _, _, _, awake⟩ := h
  have taken := handOver_hearing (s := framed c ops s) running hc awake hfree
  refine ⟨settle (handOver c ops false (framed c ops s)), ?_, fun hl => ?_, fun hl h1 => ?_⟩
  · rw [exec_takenRow, live_next running, commandTaken_ready h hk hl]
  · have fresh := taken.active hl
    exact ⟨fresh.power, fresh.deferred, fresh.timer⟩
  · have same := taken.idle hl h1
    exact ⟨same.power, same.deferred, same.timer⟩

/-! ### The service rotation -/

theorem atLink_iff (c : Cmd) : atLink c = true ↔ c ∈ rteCommands := by
  cases c <;> decide

theorem anyRequest_iff {s : State} : anyRequest s = true ↔ ∃ i : Fin 4, (s.lanes[i]).request ≠ none := by
  rw [anyRequest, List.any_eq_true]
  constructor
  · rintro ⟨l, hl, hr⟩
    obtain ⟨i, hi, rfl⟩ := Vector.getElem_of_mem (Vector.mem_toList_iff.1 hl)
    exact ⟨⟨i, hi⟩, Option.isSome_iff_ne_none.1 hr⟩
  · rintro ⟨i, hi⟩
    exact ⟨s.lanes[i], Vector.mem_toList_iff.2 (Vector.getElem_mem i.isLt), Option.isSome_iff_ne_none.2 hi⟩

theorem hasSlice_iff (d : Dse) : d.hasSlice = true ↔ ∃ rf, d.refresh = some rf ∧ rf.phase ≠ .sending := by
  unfold Dse.hasSlice
  cases d.refresh with
  | none => simp
  | some rf => cases hp : rf.phase <;> simp [hp]

theorem profileHasUnit_iff (s : State) : profileHasUnit s = true ↔ hasWork s .profile := by
  unfold profileHasUnit hasWork
  cases s.pim.op with
  | none => simp
  | store _ => simp
  | load l =>
    cases hs : l.stage with
    | reading => simp [hs]
    | settings => simp [hs]
    | seeding =>
      have request := anyRequest_iff (s := s)
      simp only [ProfileOp.load.injEq, exists_eq_left', hs, reduceCtorEq, false_or, true_and, ← request,
        Bool.not_eq_true', Bool.and_eq_false_iff, beq_eq_false_iff_ne, bne_eq_false_iff_eq]
      by_cases h1 : l.next = 0 <;> by_cases h2 : l.scope = .seeds <;> simp [h1, h2]

/-- A unit waits at a position as R89, R100, R149 and R190 say. -/
theorem unitWaits_iff (s : State) (p : Position) : unitWaits s p = true ↔ hasWork s p := by
  cases p with
  | lane i => simp [unitWaits, hasWork, Option.isSome_iff_ne_none]
  | link => simp [unitWaits, hasWork, atLink_iff]
  | display => exact hasSlice_iff s.dse
  | profile => exact profileHasUnit_iff s

/-- The first that passes in a list with rising measure is the least that passes. -/
theorem find?_rising {α : Type} {f : α → Bool} {g : α → Nat} {l : List α} (h : l.Pairwise fun a b => g a < g b) {a : α} :
    l.find? f = some a ↔ (a ∈ l ∧ f a = true) ∧ ∀ b ∈ l, f b = true → g a ≤ g b := by
  induction l with
  | nil => simp
  | cons x l ih =>
    obtain ⟨above, rest⟩ := List.pairwise_cons.1 h
    cases hx : f x with
    | true =>
      rw [List.find?_cons_of_pos hx, Option.some.injEq]
      constructor
      · rintro rfl
        refine ⟨⟨List.mem_cons_self, hx⟩, fun b hb _ => ?_⟩
        rcases List.mem_cons.1 hb with rfl | hb
        · exact le_rfl
        · exact (above b hb).le
      · rintro ⟨⟨ha, -⟩, hmin⟩
        rcases List.mem_cons.1 ha with rfl | ha
        · rfl
        · exact absurd (hmin x List.mem_cons_self hx) (by have := above a ha; omega)
    | false =>
      rw [List.find?_cons_of_neg (by rw [hx]; nofun), ih rest]
      constructor
      · rintro ⟨⟨ha, hf⟩, hmin⟩
        refine ⟨⟨List.mem_cons_of_mem x ha, hf⟩, fun b hb hfb => ?_⟩
        rcases List.mem_cons.1 hb with rfl | hb
        · exact absurd (hx.symm.trans hfb) nofun
        · exact hmin b hb hfb
      · rintro ⟨⟨ha, hf⟩, hmin⟩
        rcases List.mem_cons.1 ha with rfl | ha
        · exact absurd (hx.symm.trans hf) nofun
        · exact ⟨⟨ha, hf⟩, fun b hb => hmin b (List.mem_cons_of_mem x hb)⟩

/-- The rotation looks at the positions in the order of R89, each once. -/
theorem after_rising (p : Position) : p.after.Pairwise fun a b => turnsBefore p a < turnsBefore p b := by
  cases p with
  | lane i =>
    revert i
    decide
  | _ => decide

theorem mem_after (p q : Position) : q ∈ p.after := by
  have order : ∀ p ∈ Position.order, ∀ q ∈ Position.order, q ∈ p.after := by decide
  have all (p : Position) : p ∈ Position.order := by
    cases p with
    | lane i =>
      revert i
      decide
    | _ => decide
  exact order p (all p) q (all q)

theorem settled_free {s : State} (h : ∀ p, s.rte.serving = some p → ¬ hasWork s p) : settled s = nextPosition s := by
  unfold settled
  split
  · next p hp => rw [if_neg fun hw => h p hp ((unitWaits_iff s p).1 hw)]
  · rfl

theorem nextPosition_eq_some {s : State} {p : Position} : nextPosition s = some p ↔
    hasWork s p ∧ ∀ q, hasWork s q → turnsBefore s.rte.last p ≤ turnsBefore s.rte.last q := by
  simp only [nextPosition, find?_rising (after_rising s.rte.last), mem_after, true_and, true_implies, unitWaits_iff]

theorem nextPosition_eq_none {s : State} : nextPosition s = none ↔ ∀ p, ¬ hasWork s p := by
  rw [nextPosition, List.find?_eq_none]
  exact ⟨fun h p hw => h p (mem_after _ p) ((unitWaits_iff s p).2 hw), fun h p _ hw => h p ((unitWaits_iff s p).1 hw)⟩

theorem absorption_request {i : Fin 4} {s : State} (h : (s.lanes[i]).request ≠ none) : absorption i s = s := by
  unfold absorption
  split
  · next hreq _ => exact absurd hreq h
  · rfl

theorem absorption_other {i : Fin 4} {s : State} (h : s.rte.serving ≠ some (.lane i)) : absorption i s = s := by
  unfold absorption
  split
  · exact unitAt_other h
  · rfl

theorem serveRequest_other {kind : LaneRequest} {i : Fin 4} {f : State → State} {s : State}
    (h : s.rte.serving ≠ some (.lane i)) : serveRequest kind i f s = s := by
  unfold serveRequest
  split
  · exact unitAt_other h
  · rfl

/-- A command that is not served as it is handed over waits (R176). -/
theorem exec_waits {c : Cmd} {ops : List Byte} {s : State} (h : Hears c ops s) (h1 : c ≠ .laneSet) (h2 : c ≠ .laneEnable)
    (h3 : c ≠ .powerSet) (hr : readyAtOnce c ops (taken c ops s) = false) :
    exec (takenRow c (Frame.ofOperands ops)) s = .next (settle (leftWaiting c (Frame.ofOperands ops) s)) := by
  have ⟨⟨running, _⟩, _⟩ := h
  rw [exec_takenRow, live_next running, commandTaken_waits h h1 h2 h3 hr]

/-- A command that its owner serves as it is handed over, taken in RUN: its row gives what the service leaves, with the answer
sent (R174 to R176). -/
theorem exec_answered {c : Cmd} {ops : List Byte} {a : Answer} {s t : State} (h : Hears c ops s) (h1 : c ≠ .laneSet)
    (h2 : c ≠ .laneEnable) (h3 : c ≠ .powerSet) (hr : readyAtOnce c ops (taken c ops s) = true)
    (hs : serve c ops (taken c ops s) = (t, a)) (ht : t.ctl = (taken c ops s).ctl) :
    exec (takenRow c (Frame.ofOperands ops)) s
      = .next (settle (t.setCtl (answeredAtOnce c.code (Frame.ofOperands ops) a s).ctl)) := by
  have ⟨⟨running, _⟩, _⟩ := h
  have row := commandTaken_served h h1 h2 h3 hr (by rw [hs, ht]; rfl)
  have answer : sendAnswer (some c) a t = t.setCtl (answeredAtOnce c.code (Frame.ofOperands ops) a s).ctl := by
    simp only [sendAnswer, ht, taken, answeredAtOnce, answeredTxn, Txn.ofFrame]
    cases c with
    | sleep => cases hr
    | _ => rfl
  rw [exec_takenRow, live_next running, row, hs, answer]

theorem laneOf_isNone {n : Nat} : laneOf n = none ↔ 3 < n := by
  unfold laneOf
  split <;> simp <;> omega

/-- Settles O13: the rotation by `find?_rising`, the fourteen commands by `exec_waits`. -/
theorem twoMomentCommandsWait : Obligations.TwoMomentCommandsWait := by
  refine ⟨fun s => ⟨rfl, fun p hp hw => ?_, fun hfree => ⟨fun p => ?_, ?_⟩, fun hr i => ⟨fun hreq => ?_, fun hser => ⟨?_, ?_, ?_⟩⟩⟩, ?_⟩
  · rw [settle_serving, settled, hp]
    exact if_pos ((unitWaits_iff s p).2 hw)
  · rw [settle_serving, settled_free hfree]
    exact nextPosition_eq_some
  · rw [settle_serving, settled_free hfree]
    exact nextPosition_eq_none
  · exact (live_next hr).trans (by rw [absorption_request hreq])
  · exact (live_next hr).trans (by rw [absorption_other hser])
  · exact (live_next hr).trans (by rw [serveRequest_other hser])
  · exact (live_next hr).trans (by rw [serveRequest_other hser])
  · rintro s ops f rfl
    refine ⟨fun h => exec_waits h nofun nofun nofun rfl, fun h hn => exec_waits h nofun nofun nofun ?_, fun h hn => ?_,
      fun h => exec_waits h nofun nofun nofun rfl, fun h => exec_waits h nofun nofun nofun rfl,
      fun h => exec_waits h nofun nofun nofun rfl, fun h => exec_waits h nofun nofun nofun rfl,
      fun h => exec_waits h nofun nofun nofun rfl, fun h => exec_waits h nofun nofun nofun rfl,
      fun h => exec_waits h nofun nofun nofun rfl, fun h => exec_waits h nofun nofun nofun rfl,
      fun h => exec_waits h nofun nofun nofun rfl, fun h => exec_waits h nofun nofun nofun rfl,
      fun h => exec_waits h nofun nofun nofun rfl, fun h => exec_waits h nofun nofun nofun rfl⟩
    · have named : laneOf (byteAt ops 0) ≠ none := fun h => by have := laneOf_isNone.1 h; omega
      exact Option.isNone_eq_false_iff.2 (Option.isSome_iff_ne_none.2 named)
    · have unnamed := laneOf_isNone.2 hn
      have ⟨⟨running, _⟩, _⟩ := h
      have refused : serve .laneStatus ops (taken .laneStatus ops s) = (taken .laneStatus ops s, .refuse .badOperand) := by
        show serveLaneStatus ops _ = _
        simp only [serveLaneStatus, unnamed]
      exact exec_answered h nofun nofun nofun (show Option.isNone _ = true by rw [unnamed]; rfl) refused rfl

/-! ### The commands of the CTL -/

/-- Settles O15: the answers of the CTL, and RELEASE by the start-up load. -/
theorem ctlCommandsAreAnswered : Obligations.CtlCommandsAreAnswered := by
  intro s
  refine ⟨fun h hp hfree => ⟨fun hd => ?_, fun hd => ?_⟩, fun h => ?_, fun h => ?_, fun h => ⟨?_, rfl⟩⟩
  · have ⟨running, _⟩ := h
    have served := toOwner_ready (c := .release) (ops := []) (s := (framed .release [] s).setPwu (heard s)) hfree hd rfl
    have row := commandTaken_anyLink h hp (.inr rfl)
    rw [served] at row
    refine (live_next running).trans (congrArg (fun t => Host.Outcome.next (settle t)) (row.trans ?_))
    show sendAnswer _ ⟨.ok, s.ctl.record.bytes⟩ _ = _
    rw [resetRecord_bytes]
    rfl
  · have ⟨running, _⟩ := h
    have waits := toOwner_waits (c := .release) (ops := []) (s := (framed .release [] s).setPwu (heard s)) false hfree hd
    have row := commandTaken_anyLink h hp (.inr rfl)
    rw [waits] at row
    exact (live_next running).trans (congrArg (fun t => Host.Outcome.next (settle t)) row)
  · have ⟨_, power, link, _⟩ := h
    have run : (heard s).power = .run := by
      unfold heard
      split <;> exact power
    have row := exec_answered h nofun nofun nofun rfl rfl rfl
    have bytes : statusBytes (taken .status [] s) = causeBytes s.wta ++ twoBytes s.wta.enables.toNat
        ++ [1, 0, BitVec.ofNat 8 (oneIf s.rte.hold), BitVec.ofNat 8 (operationCodes s.pim.op).1] := by
      show setBytes s.wta.causeSet ++ setBytes s.wta.enables
        ++ [s.ctl.link.code, (heard s).power.code, boolByte s.rte.hold, s.pim.op.code] = _
      rw [causeBytes_eq, setBytes_eq, link, run, boolByte_eq, profileOp_code]
      rfl
    rw [bytes] at row
    exact row
  · have row := exec_answered h nofun nofun nofun rfl rfl rfl
    have bytes := profileBytes_eq (taken .profileStatus [] s).pim
    rw [bytes] at row
    exact row
  · exact exec_answered h nofun nofun nofun rfl rfl rfl

end Sys2Proof.Machine
end

section
/-! PROOF. The commands that are served as they are taken: the slots and windows of the WTA, the view settings of the DSE and
the power settings of the PWU (R120, R122, R131, R139, R146, R156, R168, R169). -/

namespace Sys2Proof.Machine

/-! ### Numbers that name an element -/

theorem slotOf_none {n : Nat} : slotOf n = none ↔ 7 < n := by
  unfold slotOf
  split <;> simp <;> omega

theorem slotOf_val {n : Nat} {i : Fin 8} : slotOf n = some i ↔ n = i.val := by
  unfold slotOf
  split
  · simp [Fin.ext_iff]
  · simp
    omega

theorem laneOf_val {n : Nat} {i : Fin 4} : laneOf n = some i ↔ n = i.val := by
  unfold laneOf
  split
  · simp [Fin.ext_iff]
  · simp
    omega

theorem probeOf_val {n : Nat} {i : Fin 16} : probeOf n = some i ↔ n = i.val := by
  unfold probeOf
  split
  · simp [Fin.ext_iff]
  · simp
    omega

theorem probeOf_none {n : Nat} : probeOf n = none ↔ 15 < n := by
  unfold probeOf
  split <;> simp <;> omega

theorem rowOf_none {n : Nat} : rowOf n = none ↔ n = 0 ∨ 16 < n := by
  unfold rowOf
  split
  · simp_all
  · rw [probeOf_none]
    omega

theorem rowOf_val (i : Fin 16) : rowOf (i.val + 1) = some i := by
  rw [rowOf, if_neg (Nat.succ_ne_zero _), Nat.add_sub_cancel]
  exact probeOf_val.2 rfl

/-! ### Slots and windows -/

theorem serveWatchFree_refused {ops : List Byte} (s : State) (h : 7 < byteAt ops 0) :
    serveWatchFree ops s = (s, .refuse .badOperand) := by
  rw [serveWatchFree, slotOf_none.2 h]

theorem unbind_eq (i : Fin 8) (s : State) : unbind i s
    = (s.setRte { s.rte with table := match (s.wta.slots[i]).boundKey with
        | some k => s.rte.table.map fun r => if r.key = k then { r with watch := none } else r
        | none => s.rte.table }).setWta { s.wta with slots := s.wta.slots.set i .free } := by
  unfold unbind
  cases (s.wta.slots[i]).boundKey <;> rfl

theorem serveTakeWatch_refused {ops : List Byte} (s : State) (h : 7 < byteAt ops 0) :
    serveTakeWatch ops s = (s, .refuse .badOperand) := by
  rw [serveTakeWatch, slotOf_none.2 h]

/-- What TAKE-WATCH does, by the state of its slot (R122). -/
theorem serveTakeWatch_slot {ops : List Byte} {i : Fin 8} (s : State) (h : byteAt ops 0 = i.val) :
    serveTakeWatch ops s = match s.wta.slots[i] with
      | .pending k v missed _ => (modifySlot i Slot.mark s, ⟨.ok, takePayload k (some v) missed false⟩)
      | .detached k v missed _ => (modifySlot i Slot.mark s, ⟨.ok, takePayload k v missed true⟩)
      | .armed _ => (s, .refuse .nothing)
      | .free => (s, .refuse .denied) := by
  rw [serveTakeWatch, slotOf_val.2 h] <;> rfl

theorem modifySlot_mark {i : Fin 8} {x : Slot} {s : State} (h : s.wta.slots[i] = x) :
    modifySlot i Slot.mark s = s.setWta { s.wta with slots := s.wta.slots.set i x.mark } := by
  rw [← h]
  rfl

/-- Settles O19: TAKE-WATCH by the state of its slot (`serveTakeWatch_slot`), WATCH-FREE by `unbind_eq`. -/
theorem slotCommands : Obligations.SlotCommands := by
  rintro s ops f rfl
  refine ⟨fun h => ⟨fun hn => ?_, fun i hi => ?_⟩, fun h => ⟨fun hn => ?_, fun i hi => ?_⟩⟩
  · exact exec_answered h nofun nofun nofun rfl (serveWatchFree_refused _ hn) rfl
  · have served : serve .watchFree ops (taken .watchFree ops s)
        = (unbind i (taken .watchFree ops s), ⟨.ok, [(s.wta.slots[i]).code]⟩) := by
      show serveWatchFree ops _ = _
      rw [serveWatchFree, slotOf_val.2 hi]
      rfl
    rw [unbind_eq] at served
    exact exec_answered h nofun nofun nofun rfl served rfl
  · exact exec_answered h nofun nofun nofun rfl (serveTakeWatch_refused _ hn) rfl
  · have served : serve .takeWatch ops (taken .takeWatch ops s) = _ := serveTakeWatch_slot _ hi
    have slot : (taken .takeWatch ops s).wta.slots[i] = s.wta.slots[i] := rfl
    rw [slot] at served
    cases hx : s.wta.slots[i] with
    | free =>
      rw [hx] at served
      exact exec_answered h nofun nofun nofun rfl served rfl
    | armed k =>
      rw [hx] at served
      exact exec_answered h nofun nofun nofun rfl served rfl
    | pending k v missed t =>
      rw [hx] at served
      simp only [modifySlot_mark (slot.trans hx)] at served
      have row := exec_answered h nofun nofun nofun rfl served rfl
      cases missed <;> exact row
    | detached k v missed t =>
      rw [hx] at served
      simp only [modifySlot_mark (slot.trans hx)] at served
      have row := exec_answered h nofun nofun nofun rfl served rfl
      cases v <;> cases missed <;> exact row

theorem serveTrapRead_refused {ops : List Byte} (s : State) (h : 3 < byteAt ops 0 ∨ 1 < byteAt ops 1) :
    serveTrapRead ops s = (s, .refuse .badOperand) := by
  unfold serveTrapRead windowOf
  rcases h with h | h
  · rw [laneOf_isNone.2 h]
  · rw [flagOf_none.2 h]
    cases laneOf (byteAt ops 0) <;> rfl

theorem serveTrapRead_window {ops : List Byte} {i : Fin 4} (s : State) (hi : byteAt ops 0 = i.val) (h : byteAt ops 1 ≤ 1) :
    serveTrapRead ops s = (if byteAt ops 1 = 1 then writeTrap i { s.wta.traps[i] with clearNote := some ⟨0, none⟩ } s else s,
      ⟨.ok, (s.wta.traps[i]).bytes⟩) := by
  unfold serveTrapRead windowOf
  rw [laneOf_val.2 hi, flagOf_some h]
  simp

/-- Settles O20: the checks and the note of TRAP-READ, the bytes by `windowBytes_eq`. -/
theorem trapReadNotes : Obligations.TrapReadNotes := by
  rintro s ops f rfl h
  refine ⟨fun hn => ?_, fun i hi => ⟨fun ho => ?_, fun ho => ?_, windowBytes_eq _⟩⟩
  · exact exec_answered h nofun nofun nofun rfl (serveTrapRead_refused _ hn) rfl
  · have served : serve .trapRead ops (taken .trapRead ops s) = _ := serveTrapRead_window _ hi (by omega)
    rw [if_neg (by omega)] at served
    exact exec_answered h nofun nofun nofun rfl served rfl
  · have served : serve .trapRead ops (taken .trapRead ops s) = _ := serveTrapRead_window _ hi (by omega)
    rw [if_pos ho] at served
    exact exec_answered h nofun nofun nofun rfl served rfl

/-! ### The view settings -/

/-- The binding that a code and an argument name (R139). -/
theorem bindingOf_eq_some {code : Nat} {argument : List Byte} (b : Binding) : bindingOf code argument = some b ↔ match b with
    | .empty => code = 0
    | .record k => code = 1 ∧ k = keyOf argument
    | .probe p => code = 2 ∧ byteAt argument 3 = p.val
    | .watch n => code = 3 ∧ byteAt argument 3 = n.val
    | .auto => code = 4 := by
  unfold bindingOf
  split <;> cases b <;> simp_all [probeOf_val, slotOf_val]
  exact eq_comm

theorem format_ofCode_eq_some {code : Nat} (g : Format) : Format.ofCode code = some g ↔ code = match g with
    | .hex => 0
    | .decimal => 1
    | .binary => 2 := by
  unfold Format.ofCode
  split <;> cases g <;> simp_all

theorem format_ofCode_none {n : Nat} (h : 2 < n) : Format.ofCode n = none := by
  unfold Format.ofCode
  split <;> simp_all

theorem binding_argument (b : Binding) : (b.code, b.argument) = match b with
    | .empty => (0, [0, 0, 0, 0])
    | .record k => (1, keyBytes k)
    | .probe p => (2, [0, 0, 0, BitVec.ofNat 8 p.val])
    | .watch n => (3, [0, 0, 0, BitVec.ofNat 8 n.val])
    | .auto => (4, [0, 0, 0, 0]) := by
  have small (n : Nat) (h : n < 16) : beBytes 4 n = [0, 0, 0, BitVec.ofNat 8 n] := by
    revert n
    decide
  cases b with
  | record k => exact congrArg (Prod.mk 1) (keyBytes_eq k)
  | probe p => exact congrArg (Prod.mk 2) (small p.val p.isLt)
  | watch n => exact congrArg (Prod.mk 3) (small n.val (by omega))
  | _ => rfl

theorem viewSet_refused {row binding format : Nat} {argument : List Byte} (s : State)
    (h : row = 0 ∨ 16 < row ∨ bindingOf binding argument = none ∨ 2 < format) :
    viewSet row binding format argument s = none := by
  unfold viewSet
  rcases h with h | h | h | h
  · rw [rowOf_none.2 (.inl h)]
  · rw [rowOf_none.2 (.inr h)]
  · rw [h]
    cases rowOf row <;> rfl
  · rw [format_ofCode_none h]
    cases rowOf row <;> cases bindingOf binding argument <;> rfl

theorem viewSet_accepted {binding format : Nat} {argument : List Byte} {i : Fin 16} {b : Binding} {g : Format} (s : State)
    (hb : bindingOf binding argument = some b) (hg : Format.ofCode format = some g) :
    viewSet (i.val + 1) binding format argument s = some (writeRow i b g s) := by
  rw [viewSet, rowOf_val, hb, hg]

/-- The answer of VIEW-SET gives the row as it is written. -/
theorem serveViewSet_accepted {ops : List Byte} {i : Fin 16} {b : Binding} {g : Format} (s : State)
    (hi : byteAt ops 0 = i.val + 1) (hb : bindingOf (byteAt ops 1) (bytesAt ops 3 4) = some b)
    (hg : Format.ofCode (byteAt ops 2) = some g) : serveViewSet ops s
      = (s.setDse { s.dse with rows := s.dse.rows.set i ⟨b, g, (s.dse.rows[i]).rebound || s.rte.hold⟩ },
        ⟨.ok, [byteOf (i.val + 1), byteOf b.code, byteOf g.code] ++ b.argument⟩) := by
  have written : (writeRow i b g s).dse.rows[i] = ⟨b, g, (s.dse.rows[i]).rebound || s.rte.hold⟩ := by
    show (modifyAt s.dse.rows i _)[i] = _
    rw [modifyAt_get, if_pos rfl]
  unfold serveViewSet
  rw [hi, viewSet_accepted s hb hg, rowOf_val]
  dsimp only
  rw [written]
  rfl

theorem serveViewSet_refused {ops : List Byte} (s : State) (h : byteAt ops 0 = 0 ∨ 16 < byteAt ops 0
    ∨ bindingOf (byteAt ops 1) (bytesAt ops 3 4) = none ∨ 2 < byteAt ops 2) :
    serveViewSet ops s = (s, .refuse .badOperand) := by
  rw [serveViewSet, viewSet_refused s h]

/-- Settles O21. -/
theorem viewCommandsWriteTheSettings : Obligations.ViewCommandsWriteTheSettings := by
  refine ⟨fun code argument => ⟨bindingOf_eq_some, format_ofCode_eq_some, fun g => ?_, binding_argument⟩, ?_⟩
  · cases g <;> rfl
  · rintro s ops f rfl
    refine ⟨fun h => ⟨fun hn => ?_, fun i b g hi hb hg => ?_⟩, fun h => ?_, fun h => ?_⟩
    · exact exec_answered h nofun nofun nofun rfl (serveViewSet_refused _ hn) rfl
    · exact exec_answered h nofun nofun nofun rfl (serveViewSet_accepted _ hi hb hg) rfl
    · exact exec_answered h nofun nofun nofun rfl rfl rfl
    · exact exec_answered h nofun nofun nofun rfl rfl rfl

/-! ### The power settings -/

/-- The 25 bytes of the power settings (R198). -/
theorem powerBytes_eq (p : Pwu) : p.settingBytes = powerBytes p := by
  unfold Pwu.settingBytes powerBytes
  simp only [beBytes_two, boolByte_eq, wakeEdge_code, byteOf]

/-- The three bytes of a wake set (R198). -/
theorem wakeBytes_eq (w : WakeSet) :
    w.bytes = BitVec.ofNat 8 (oneIf w.holdkey + 2 * oneIf w.lsel) :: twoBytes w.probes.toNat := by
  unfold WakeSet.bytes
  rw [beBytes_two]
  cases w.holdkey <;> cases w.lsel <;> rfl

theorem servePowerStatus_refused {ops : List Byte} (s : State) (h : 1 < byteAt ops 0) :
    servePowerStatus ops s = (s, .refuse .badOperand) := by
  rw [servePowerStatus, flagOf_none.2 h]

theorem servePowerStatus_option {ops : List Byte} (s : State) (h : byteAt ops 0 ≤ 1) : servePowerStatus ops s
    = (if byteAt ops 0 = 1 then noteWakeSources s else s,
      ⟨.ok, s.pwu.power.code :: s.pwu.wakePending.bytes ++ s.pwu.settingBytes⟩) := by
  rw [servePowerStatus, flagOf_some h]
  simp

theorem heard_run {s : State} (h : s.pwu.power = .run) : (heard s).power = .run := by
  unfold heard
  split <;> exact h

theorem heard_settingBytes (s : State) : (heard s).settingBytes = s.pwu.settingBytes := by
  unfold heard
  split <;> rfl

theorem heard_wakePending (s : State) : (heard s).wakePending = s.pwu.wakePending := by
  unfold heard
  split <;> rfl

/-- A POWER-SET taken in RUN is served before its activity event (R168, R174; log 28). -/
theorem exec_powerSet {ops : List Byte} {a : Answer} {p : Pwu} {s : State} (h : Hears .powerSet ops s)
    (hs : ∀ c, servePowerSet ops (s.setCtl c) = ((s.setPwu p).setCtl c, a)) (ho : p.op = s.pwu.op)
    (hp : p.power = s.pwu.power) : exec (.powerSet (Frame.ofOperands ops)) s = .next (settle
      { answeredAtOnce 0x40 (Frame.ofOperands ops) a s with pwu := heard (s.setPwu p) }) := by
  have ⟨opened, power, link, length, free⟩ := h
  have ⟨running, _, _, _, _, op, _⟩ := opened
  have served : serve .powerSet ops ((framed .powerSet ops s).setCtl { (framed .powerSet ops s).ctl with phase := .waiting })
      = _ := hs { (framed .powerSet ops s).ctl with phase := .waiting }
  have owner := toOwner_ready (c := .powerSet) (ops := ops) (s := framed .powerSet ops s) free rfl (by rw [served]; rfl)
  rw [served] at owner
  have row := commandTaken_ready opened link length
  rw [show handOver .powerSet ops false (framed .powerSet ops s) = takingActivity (toOwner .powerSet ops false _) from rfl,
    owner, takingActivity_run (ho.trans op) (hp.trans power)] at row
  refine (live_next running).trans (congrArg (fun t => Host.Outcome.next (settle t)) (row.trans ?_))
  rfl

theorem powerSet_setCtl_none {ops : List Byte} {s : State} (h : parsePower ops = none) (c : Ctl) :
    servePowerSet ops (s.setCtl c) = ((s.setPwu s.pwu).setCtl c, .refuse .badOperand) := by
  rw [servePowerSet, powerSet, h]
  rfl

theorem powerSet_setCtl_some {ops : List Byte} {x : PowerSettings} {s : State} (h : parsePower ops = some x) (c : Ctl) :
    servePowerSet ops (s.setCtl c) = ((s.setPwu (s.pwu.apply x)).setCtl c, ⟨.ok, (s.pwu.apply x).settingBytes⟩) := by
  rw [servePowerSet, powerSet, h]
  rfl

/-- A timer starts with its setting, clamped to 255, unless it is 0 (R158, R168). -/
theorem startTimer_clamped (t : ChainTimer) (n : Nat) :
    startTimer t (min 255 n) = if n = 0 then none else some (t, min 255 n) := by
  unfold startTimer
  by_cases h : n = 0
  · simp [h]
  · rw [if_neg h, if_neg (by omega)]

/-- Settles O22: POWER-SET by `exec_powerSet`, POWER-STATUS by `servePowerStatus_option`. -/
theorem powerCommands : Obligations.PowerCommands := by
  refine ⟨powerBytes_eq, wakeBytes_eq, ?_⟩
  rintro s ops f rfl
  refine ⟨fun h => ?_, fun h => ?_⟩
  · have ⟨_, _, _, length, _⟩ := h
    have long : 22 ≤ ops.length := by rw [length]; decide
    refine ⟨fun hn => ?_, fun edges p he hk ha hl hp => ?_⟩
    · exact exec_powerSet h (powerSet_setCtl_none ((parsePower_none long).2 hn)) rfl rfl
    · have codes (n : Fin 16) : byteAt ops (6 + n.val) = (edges[n]).code := (he n).trans (by cases edges[n] <;> rfl)
      have row := exec_powerSet h (powerSet_setCtl_some (parsePower_some long codes hk ha hl)) rfl rfl
      have after : heard (s.setPwu (s.pwu.apply ⟨min 255 (natAt ops 0 2), min 255 (natAt ops 2 2), min 255 (natAt ops 4 2),
          edges, byteAt ops 22 = 1, byteAt ops 23 = 1, byteAt ops 24 = 1⟩)) = p := by
        rw [hp]
        by_cases active : byteAt ops 24 = 1 <;> simp [heard, Pwu.apply, startTimer_clamped, active]
      rw [after] at row
      rw [hp]
      rw [hp] at row
      exact row
  · have ⟨_, power, _⟩ := h
    have bytes : (taken .powerStatus ops s).pwu.power.code :: (taken .powerStatus ops s).pwu.wakePending.bytes
        ++ (taken .powerStatus ops s).pwu.settingBytes = [0] ++ s.pwu.wakePending.bytes ++ s.pwu.settingBytes := by
      show (heard s).power.code :: (heard s).wakePending.bytes ++ (heard s).settingBytes = _
      rw [heard_run power, heard_wakePending, heard_settingBytes]
      rfl
    have served (ho : byteAt ops 0 ≤ 1) : serve .powerStatus ops (taken .powerStatus ops s) = _ := servePowerStatus_option _ ho
    rw [bytes] at served
    refine ⟨fun hn => ?_, fun ho => ?_, fun ho => ?_⟩
    · exact exec_answered h nofun nofun nofun rfl (servePowerStatus_refused _ hn) rfl
    · have reads := served (by omega)
      rw [if_neg (by omega)] at reads
      exact exec_answered h nofun nofun nofun rfl reads rfl
    · have reads := served (by omega)
      rw [if_pos ho] at reads
      have row := exec_answered h nofun nofun nofun rfl reads rfl
      have note : noteWakeSources (taken .powerStatus ops s)
          = (taken .powerStatus ops s).setPwu { heard s with clearNote := some s.pwu.wakePending } := by
        rw [← heard_wakePending]
        rfl
      rw [note] at row
      exact row

end Sys2Proof.Machine
end

section
/-! PROOF. What an offer of edges to the lanes leaves unchanged, and PROBE-SET (R6, R9, R10). -/

namespace Sys2Proof.Machine

/-! ### What an offer leaves -/

/-- `t` is `s` after the lanes have read a change: the lanes may have moved, LANE may be raised (R29), and an activity event may
have brought the part to RUN with its panel (R35, R160). -/
structure Offered (s t : State) : Prop where
  pfe : t.pfe = s.pfe
  rte : t.rte = s.rte
  wta : t.wta = { s.wta with causes := t.wta.causes }
  dse : t.dse = { s.dse with
    panelOn := t.dse.panelOn, refreshTimer := t.dse.refreshTimer, refresh := t.dse.refresh, port := t.dse.port }
  pwu : t.pwu = { s.pwu with power := t.pwu.power, op := t.pwu.op, timer := t.pwu.timer, deferred := t.pwu.deferred }
  ctl : t.ctl = s.ctl
  pim : t.pim = s.pim

theorem Offered.refl (s : State) : Offered s s := ⟨rfl, rfl, rfl, rfl, rfl, rfl, rfl⟩

section
variable {s t : State} (h : Offered s t)
include h

theorem Offered.table : t.rte.table = s.rte.table := congrArg Rte.table h.rte

theorem Offered.hold : t.rte.hold = s.rte.hold := congrArg Rte.hold h.rte

theorem Offered.slots : t.wta.slots = s.wta.slots := by rw [h.wta]

theorem Offered.traps : t.wta.traps = s.wta.traps := by rw [h.wta]

theorem Offered.rows : t.dse.rows = s.dse.rows := by rw [h.dse]

theorem Offered.wakePending : t.pwu.wakePending = s.pwu.wakePending := by rw [h.pwu]

end

theorem Offered.trans {s t u : State} (h : Offered s t) (h' : Offered t u) : Offered s u where
  pfe := h'.pfe.trans h.pfe
  rte := h'.rte.trans h.rte
  wta := h'.wta.trans (by rw [h.wta])
  dse := h'.dse.trans (by rw [h.dse])
  pwu := h'.pwu.trans (by rw [h.pwu])
  ctl := h'.ctl.trans h.ctl
  pim := h'.pim.trans h.pim

theorem offered_setLanes (ls : Vector Lane 4) (s : State) : Offered s (s.setLanes ls) := ⟨rfl, rfl, rfl, rfl, rfl, rfl, rfl⟩

theorem offered_toRun (s : State) : Offered s (s.setPwu s.pwu.toRun) := ⟨rfl, rfl, rfl, rfl, rfl, rfl, rfl⟩

theorem offered_panelTurnOn (s : State) : Offered s (panelTurnOn s) := by
  cases hon : s.dse.panelOn with
  | true =>
    rw [panelTurnOn_on hon]
    exact .refl s
  | false =>
    cases hd : startUpDone s with
    | false =>
      rw [panelTurnOn_early hd]
      exact .refl s
    | true =>
      obtain ⟨rf, _, on⟩ := panelTurnOn_off hon hd
      rw [on]
      exact ⟨rfl, rfl, rfl, rfl, rfl, rfl, rfl⟩

theorem offered_activity (s : State) : Offered s (activity s) := by
  unfold activity abortSleepEntry
  split
  · exact ((offered_toRun s).trans (offered_setLanes _ _)).trans (offered_panelTurnOn _)
  · split
    · exact offered_toRun s
    · rw [refreshTimerMoves_eq]
      exact ⟨rfl, rfl, rfl, rfl, rfl, rfl, rfl⟩
    · exact (offered_toRun s).trans (offered_panelTurnOn _)
    · exact .refl s

theorem offered_activityIf (b : Bool) (s : State) : Offered s (activityIf b s) := by
  cases b with
  | false => exact .refl s
  | true => exact offered_activity s

theorem offered_offerTo (before after : Levels) (s : State) (i : Fin 4) : Offered s (offerTo before after s i) := by
  refine Offered.trans ?_ (offered_activityIf _ _)
  rw [raiseIf_eq]
  exact ⟨rfl, rfl, rfl, rfl, rfl, rfl, rfl⟩

theorem offered_offer (before : Levels) (s : State) : Offered s (offer before s) := by
  have walk (after : Levels) (is : List (Fin 4)) (t : State) : Offered t (is.foldl (offerTo before after) t) := by
    induction is generalizing t with
    | nil => exact .refl t
    | cons i is ih => exact (offered_offerTo before after t i).trans (ih _)
  unfold offer
  split
  · exact .refl s
  · exact walk _ _ _

theorem offered_movePfe (x : Pfe) (s : State) : Offered (s.setPfe x) (movePfe x s) := offered_offer _ _

/-- Each lane that reads takes the whole move of the Probe Front End as one change (R6). -/
theorem movePfe_lanes {x : Pfe} {s : State} (ho : s.pwu.op ≠ .sleepEntry) (hp : s.pwu.power ≠ .sleep) (i : Fin 4) :
    (movePfe x s).lanes[i] = (laneChange i s.pfe.levels x.levels s.lanes[i]).lane := by
  have reads : lanesStopped (s.setPfe x) = false := by simp [lanesStopped, ho, hp]
  exact offer_lanes reads i

/-! ### Qualified edges, spelled out -/

/-- A probe whose candidate is due, spelled out (R3, R5). -/
theorem qualified_spelled (p : Probe) (isDue : Prop) [Decidable isDue] : (if isDue then p.qualified else p) =
    match p.candidate with
    | some c =>
      if isDue then { p with level := c.level, edgesNow := min 65535 (p.edgesNow + 1), candidate := none } else p
    | none => p := by
  unfold Probe.qualified
  cases p.candidate with
  | none => exact ite_self p
  | some c => rfl

/-! ### PROBE-SET -/

theorem bankOperand_none {n : Nat} (h : 1 < n) : bankOperand n = none := by
  rw [bankOperand, if_neg (by omega), if_neg (by omega)]

theorem bankOperand_val (b : Fin 2) : bankOperand b.val = some b := by
  revert b
  decide

/-- The Probe Front End after a bank has taken its settings: the candidates due are qualified, and the bank's probes see their
raw levels (R9, R10; log 26). -/
def Pfe.bankSet (b : Fin 2) (bank : Bank) (x : Pfe) : Pfe :=
  { x with
    due := []
    banks := x.banks.set b bank
    probes := Vector.ofFn fun i =>
      if bankOf i = b then ((x.qualify x.due).probes[i]).filtered bank.width (decide (20 * bank.code ≤ x.pins[i]))
      else (x.qualify x.due).probes[i] }

theorem applyBanks_one (b : Fin 2) (mv width : Nat) (s : State) :
    applyBanks [⟨b, mv, width⟩] s = movePfe (s.pfe.bankSet b ⟨thresholdCode mv, min 15 width⟩) s := by
  have probes : ((s.pfe.withBanks [⟨b, mv, width⟩]).filterWhere fun i =>
      [(⟨b, mv, width⟩ : BankRequest)].any fun r => r.bank = bankOf i).probes
      = (s.pfe.bankSet b ⟨thresholdCode mv, min 15 width⟩).probes := by
    refine congrArg Vector.ofFn (funext fun i => ?_)
    by_cases h : bankOf i = b
    · simp [h, Pfe.withBanks_one, Pfe.bank, Pfe.raw]
      rfl
    · simp [h, Ne.symm h, Pfe.withBanks_one]
  have pfe : ((s.pfe.withBanks [⟨b, mv, width⟩]).filterWhere fun i =>
      [(⟨b, mv, width⟩ : BankRequest)].any fun r => r.bank = bankOf i)
      = s.pfe.bankSet b ⟨thresholdCode mv, min 15 width⟩ :=
    congrArg (fun ps => { s.pfe.bankSet b ⟨thresholdCode mv, min 15 width⟩ with probes := ps }) probes
  exact congrArg (fun x => movePfe x s) pfe

theorem heard_op {s : State} (h : s.pwu.op = .none) : (heard s).op = .none := by
  unfold heard
  split <;> exact h

theorem serveProbeSet_refused {ops : List Byte} (s : State) (h : 1 < byteAt ops 0) :
    serveProbeSet ops s = (s, .refuse .badOperand) := by
  rw [serveProbeSet, bankOperand_none h]

theorem serveProbeSet_bank {ops : List Byte} {b : Fin 2} {bank : Bank} (s : State) (hb : byteAt ops 0 = b.val)
    (hbank : bank = ⟨thresholdCode (natAt ops 1 2), min 15 (byteAt ops 3)⟩) :
    serveProbeSet ops s = (movePfe (s.pfe.bankSet b bank) s, ⟨.ok, byteOf b.val :: bank.bytes⟩) := by
  have held : (movePfe (s.pfe.bankSet b bank) s).pfe.banks[b] = bank := by
    rw [(offered_movePfe _ s).pfe]
    exact Vector.getElem_set_self b.isLt
  unfold serveProbeSet
  rw [hb, bankOperand_val]
  dsimp only
  rw [applyBanks_one, ← hbank, held]

/-- Settles O17: the new settings by `serveProbeSet_bank`, the offer of the edges by `movePfe_lanes` and `Offered`. -/
theorem probeSetWritesABank : Obligations.ProbeSetWritesABank := by
  rintro s ops f rfl h
  have ⟨⟨_, _, _, _, _, op, _⟩, power, _⟩ := h
  refine ⟨fun hn => exec_answered h nofun nofun nofun rfl (serveProbeSet_refused _ hn) rfl, fun b hb => ?_⟩
  obtain ⟨bank, hbank⟩ : ∃ bank : Bank, bank = ⟨thresholdCode (natAt ops 1 2), min 15 (byteAt ops 3)⟩ := ⟨_, rfl⟩
  have moved := offered_movePfe (s.pfe.bankSet b bank) (taken .probeSet ops s)
  have reads := movePfe_lanes (x := s.pfe.bankSet b bank) (s := taken .probeSet ops s)
    (by rw [show (taken .probeSet ops s).pwu.op = .none from heard_op op]; nofun)
    (by rw [show (taken .probeSet ops s).pwu.power = .run from heard_run power]; nofun)
  have row := exec_answered h nofun nofun nofun rfl (serveProbeSet_bank _ hb hbank) moved.ctl
  generalize ht : movePfe (Pfe.bankSet b bank (taken .probeSet ops s).pfe) (taken .probeSet ops s) = t at row
  rw [show movePfe (s.pfe.bankSet b bank) (taken .probeSet ops s) = t from ht] at moved reads
  refine ⟨_, bank, fun i => if i ∈ s.pfe.due then (s.pfe.probes[i]).qualified else s.pfe.probes[i], row,
    fun i => qualified_spelled _ _, hbank, moved.pfe.trans ?_, fun i => ?_, rfl, moved.pim,
    moved.table, moved.hold, moved.slots, moved.traps, moved.rows, moved.wakePending.trans (heard_wakePending s)⟩
  · show s.pfe.bankSet b bank = _
    unfold Pfe.bankSet
    simp only [Pfe.qualify_get]
  · have levels : t.pfe.levels = (s.pfe.bankSet b bank).levels := congrArg Pfe.levels moved.pfe
    show t.lanes[i] = (laneChange i s.pfe.levels t.pfe.levels s.lanes[i]).lane
    rw [levels]
    exact reads i

end Sys2Proof.Machine
end

section
/-! PROOF. The configuration bytes of LANE-SET, and LANE-SET and LANE-ENABLE at their taking (R18 to R21, R31, R33, R197). -/

namespace Sys2Proof.Machine

/-! ### Codes -/

theorem LaneKind.ofCode_none {n : Nat} : LaneKind.ofCode n = .none ↔ 3 < n := by
  rcases n with _ | _ | _ | _ | n <;> simp [LaneKind.ofCode]

theorem ByteOrder.ofCode_none {n : Nat} : ByteOrder.ofCode n = none ↔ 1 < n := by
  rcases n with _ | _ | n <;> simp [ByteOrder.ofCode]

theorem BitOrder.ofCode_none {n : Nat} : BitOrder.ofCode n = none ↔ 1 < n := by
  rcases n with _ | _ | n <;> simp [BitOrder.ofCode]

theorem Polarity.ofCode_none {n : Nat} : Polarity.ofCode n = none ↔ 1 < n := by
  rcases n with _ | _ | n <;> simp [Polarity.ofCode]

theorem Autoincrement.ofCode_none {n : Nat} : Autoincrement.ofCode n = none ↔ 2 < n := by
  rcases n with _ | _ | _ | n <;> simp [Autoincrement.ofCode]

/-- The five codes of an accepted configuration are its bytes (R196). -/
theorem configCodes_eq {c : LaneConfig} {k bo bi po au : Nat} (hk : LaneKind.ofCode k = some c.kind)
    (hbo : ByteOrder.ofCode bo = some c.byteOrder) (hbi : BitOrder.ofCode bi = some c.bitOrder)
    (hpo : Polarity.ofCode po = some c.polarity) (hau : Autoincrement.ofCode au = some c.autoinc) :
    configCodes c = (k, bo, bi, po, au) := by
  have kind : k = c.kind.code.toNat := (LaneKind.ofCode_code hk).symm
  have byteOrder : bo = match c.byteOrder with | .big => 0 | .little => 1 := by
    rcases bo with _ | _ | n <;> simp [ByteOrder.ofCode] at hbo <;> simp [← hbo]
  have bitOrder : bi = match c.bitOrder with | .msbFirst => 0 | .lsbFirst => 1 := by
    rcases bi with _ | _ | n <;> simp [BitOrder.ofCode] at hbi <;> simp [← hbi]
  have polarity : po = match c.polarity with | .readIsOne => 0 | .readIsZero => 1 := by
    rcases po with _ | _ | n <;> simp [Polarity.ofCode] at hpo <;> simp [← hpo]
  have autoinc : au = match c.autoinc with | .always => 0 | .never => 1 | .flag => 2 := by
    rcases au with _ | _ | _ | n <;> simp [Autoincrement.ofCode] at hau <;> simp [← hau]
  have kindCode : c.kind.code.toNat = match c.kind with | .none => 0 | .twoWire => 1 | .fourWire => 2 | .management => 3 := by
    cases c.kind <;> rfl
  rw [kind, kindCode, byteOrder, bitOrder, polarity, autoinc]
  rfl

/-! ### The pin map -/

/-- The eleven pin map entries of the configuration bytes. -/
theorem pinEntries_eq {e : List Byte} (h : e.length = 24) :
    (bytesAt e 13 11).map BitVec.toNat = (List.range 11).map fun k => byteAt e (13 + k) := by
  refine List.ext_getElem (by simp [length_bytesAt (ops := e) (i := 13) (n := 11) (by omega)]) fun k hk hk' => ?_
  have inside : 13 + k < e.length := by
    simp at hk'
    omega
  simp [bytesAt, byteAt, inside]

/-- The entries of a kind's roles are those at its places (R18, R197). -/
theorem roleEntries_eq (kind : LaneKind) {n : Nat} (h : n ≤ 4) (g : Nat → Nat) :
    roleEntries kind n ((List.range 11).map g) = (rolePlaces kind.code.toNat n).map g := by
  cases kind with
  | fourWire => interval_cases n <;> rfl
  | _ => rfl

theorem rolePlaces_nodup (kind : Nat) {n : Nat} (h : n ≤ 4) : (rolePlaces kind n).Nodup := by
  unfold rolePlaces
  split
  · decide
  · split
    · interval_cases n <;> decide
    · split <;> decide

theorem heldEntry_val (n : Nat) : (heldEntry n).val = heldAs n := by
  unfold heldEntry heldAs probeOf
  by_cases h : n < 16
  · rw [dif_pos h, if_pos (by omega)]
    rfl
  · rw [dif_neg h, if_neg (by omega)]
    rfl

theorem heldSelect_val {kind : LaneKind} {selects i n : Nat} (h : n ≤ 15 ∨ kind ≠ .fourWire) :
    (heldSelect kind selects i n).val = heldAs n := by
  unfold heldSelect
  split
  · next beyond =>
    rcases h with h | h
    · rw [probeOf, dif_pos (by omega), heldAs, if_pos h]
      rfl
    · exact absurd beyond.1 h
  · exact heldEntry_val n

/-! ### The checks -/

theorem clampSelects_le (n : Nat) : clampSelects n ≤ 4 := by
  unfold clampSelects
  omega

theorem widthsAccepted_iff {kind : LaneKind} {w a : Nat} :
    widthsAccepted kind w a = true ↔ ¬ (kind.code.toNat ≠ 3 ∧ (w ∉ [1, 2, 4] ∨ a ∉ [1, 2])) := by
  cases kind <;> simp [widthsAccepted, LaneKind.code] <;> tauto

/-- The checks on the pin map fail when an entry of a role is above 15 or two roles share one (R19). -/
theorem roles_refused {e : List Byte} (h : e.length = 24) (kind : LaneKind) (n : Nat) :
    ¬ ((∀ x ∈ roleEntries kind (clampSelects n) ((bytesAt e 13 11).map BitVec.toNat), x ≤ 15)
        ∧ (roleEntries kind (clampSelects n) ((bytesAt e 13 11).map BitVec.toNat)).Nodup)
      ↔ (∃ a ∈ rolePlaces kind.code.toNat (clampSelects n), 15 < byteAt e (13 + a))
        ∨ ∃ a ∈ rolePlaces kind.code.toNat (clampSelects n), ∃ b ∈ rolePlaces kind.code.toNat (clampSelects n),
          a ≠ b ∧ byteAt e (13 + a) = byteAt e (13 + b) := by
  rw [pinEntries_eq h, roleEntries_eq kind (clampSelects_le n),
    List.nodup_map_iff_inj_on (rolePlaces_nodup _ (clampSelects_le n)), not_and_or]
  simp only [List.mem_map, forall_exists_index, and_imp, forall_apply_eq_imp_iff₂, not_forall, not_le]
  grind

/-- LANE-SET refuses the configuration bytes that fail a check (R19). -/
theorem parseLaneConfig_none {e : List Byte} (h : e.length = 24) : parseLaneConfig e = none ↔ ConfigRefused e := by
  unfold parseLaneConfig
  split
  · next kind bo bi po au h1 h2 h3 h4 h5 =>
    have code := LaneKind.ofCode_code h1
    have b0 : ¬ 3 < byteAt e 0 := by rw [← LaneKind.ofCode_none, h1]; nofun
    have b3 : ¬ 1 < byteAt e 3 := by rw [← ByteOrder.ofCode_none, h2]; nofun
    have b7 : ¬ 1 < byteAt e 7 := by rw [← BitOrder.ofCode_none, h3]; nofun
    have b9 : ¬ 1 < byteAt e 9 := by rw [← Polarity.ofCode_none, h4]; nofun
    have b10 : ¬ 2 < byteAt e 10 := by rw [← Autoincrement.ofCode_none, h5]; nofun
    have roles := roles_refused h kind (byteAt e 8)
    rw [code] at roles
    dsimp only
    simp only [ite_eq_right_iff, reduceCtorEq, imp_false, widthsAccepted_iff, code]
    simp only [ConfigRefused, b0, b3, b7, b9, b10, false_or]
    rw [← clampSelects, ← roles, not_and_or, not_and_or, not_not, not_le]
  · next some_ =>
    refine ⟨fun _ => ?_, fun _ => rfl⟩
    by_contra hn
    have b0 : LaneKind.ofCode (byteAt e 0) ≠ .none := fun h => hn (.inl (LaneKind.ofCode_none.1 h))
    have b3 : ByteOrder.ofCode (byteAt e 3) ≠ none := fun h => hn (.inr (.inl (ByteOrder.ofCode_none.1 h)))
    have b7 : BitOrder.ofCode (byteAt e 7) ≠ none := fun h => hn (.inr (.inr (.inr (.inl (BitOrder.ofCode_none.1 h)))))
    have b9 : Polarity.ofCode (byteAt e 9) ≠ none :=
      fun h => hn (.inr (.inr (.inr (.inr (.inl (Polarity.ofCode_none.1 h))))))
    have b10 : Autoincrement.ofCode (byteAt e 10) ≠ none :=
      fun h => hn (.inr (.inr (.inr (.inr (.inr (.inl (Autoincrement.ofCode_none.1 h)))))))
    obtain ⟨k, hk⟩ := Option.ne_none_iff_exists'.1 b0
    obtain ⟨bo, hbo⟩ := Option.ne_none_iff_exists'.1 b3
    obtain ⟨bi, hbi⟩ := Option.ne_none_iff_exists'.1 b7
    obtain ⟨po, hpo⟩ := Option.ne_none_iff_exists'.1 b9
    obtain ⟨au, hau⟩ := Option.ne_none_iff_exists'.1 b10
    exact some_ k bo bi po au hk hbo hbi hpo hau

theorem odd_iff_getLsbD (b : Byte) : decide (b.toNat % 2 = 1) = b.getLsbD 0 := by
  simp [BitVec.getLsbD, Nat.testBit_zero]

/-- The configuration that accepted bytes give (R18, R19, R197). -/
theorem parseLaneConfig_given {e : List Byte} (h : e.length = 24) {c : LaneConfig} (hc : parseLaneConfig e = some c) :
    ConfigGiven e c := by
  unfold parseLaneConfig at hc
  split at hc
  · next kind bo bi po au h1 h2 h3 h4 h5 =>
    dsimp only at hc
    split at hc
    · have code := LaneKind.ofCode_code h1
      have management : (kind = .management) = (byteAt e 0 = 3) := by
        rw [← code]
        cases kind <;> simp [LaneKind.code]
      have entry (k : Nat) (hk : k < 11) : ((bytesAt e 13 11).map BitVec.toNat).getD k 0 = byteAt e (13 + k) := by
        rw [pinEntries_eq h]
        simp [hk]
      obtain rfl := Option.some.inj hc
      refine ⟨configCodes_eq h1 h2 h3 h4 h5, by simp only [management], by simp only [management], odd_iff_getLsbD _,
        odd_iff_getLsbD _, rfl, rfl, rfl, rfl, ?_, ?_, ?_, fun n hn => ?_, ?_, ?_, ?_, ?_⟩
      · exact (heldEntry_val _).trans (congrArg heldAs (entry 0 (by omega)))
      · exact (heldEntry_val _).trans (congrArg heldAs (entry 1 (by omega)))
      · exact (heldEntry_val _).trans (congrArg heldAs (entry 2 (by omega)))
      · have place : ((bytesAt e 13 11).map BitVec.toNat).getD (3 + n.val) 0 = byteAt e (16 + n.val) := by
          rw [entry (3 + n.val) (by omega)]
          congr 1
          omega
        have small : byteAt e (16 + n.val) ≤ 15 ∨ kind ≠ .fourWire := hn.imp id fun h => by
          rintro rfl
          exact h code.symm
        simp only [heldPins, Fin.getElem_fin, Vector.getElem_ofFn]
        rw [place]
        exact heldSelect_val small
      · exact (heldEntry_val _).trans (congrArg heldAs (entry 7 (by omega)))
      · exact (heldEntry_val _).trans (congrArg heldAs (entry 8 (by omega)))
      · exact (heldEntry_val _).trans (congrArg heldAs (entry 9 (by omega)))
      · exact (heldEntry_val _).trans (congrArg heldAs (entry 10 (by omega)))
    · cases hc
  · cases hc

/-! ### The restart -/

/-- A restart, spelled out (R31, R33, R60). -/
theorem restart_eq (l : Lane) (r : LaneRequest) (lv : Levels) : l.restart r lv = { l with
    two := ⟨[], none, .address, none⟩, four := ⟨false, [], [], 0, .command []⟩, mgmt := ⟨0, false, .operation []⟩
    pointers := [], slot := none
    state :=
      if l.enabled = false ∨ l.cfg.kind = .none then .off
      else if l.cfg.kind = .fourWire ∧ ∀ n : Fin 4, n.val < l.cfg.selectCount → lv (l.cfg.pins.sel[n]) = true then
        .idle
      else .seeking
    request := some (if l.request = some .retirement ∨ r = .retirement then .retirement else .marking) } := by
  have state : (if l.enabled = true ∧ l.cfg.kind ≠ .none then l.cfg.seekingState lv else .off)
      = if l.enabled = false ∨ l.cfg.kind = .none then .off
        else if l.cfg.kind = .fourWire ∧ ∀ n : Fin 4, n.val < l.cfg.selectCount → lv (l.cfg.pins.sel[n]) = true then
          .idle
        else .seeking := by
    rw [seekingState_eq]
    by_cases off : l.enabled = false ∨ l.cfg.kind = .none
    · rw [if_pos off, if_neg (by simpa [← not_or] using fun h => off.resolve_left (by simp [h]))]
    · rw [if_neg off, if_pos (by simpa [not_or] using off)]
  have request : mergeRequest l.request r = if l.request = some .retirement ∨ r = .retirement then .retirement else .marking := by
    unfold mergeRequest
    cases r with
    | marking => simp
    | retirement => simp
  unfold Lane.restart
  rw [state, request]
  rfl

/-! ### The taking -/

/-- The part as a lane takes a command: its transaction is recorded, and its activity event is past (R174). -/
def handed (c : Cmd) (ops : List Byte) (s : State) : State := (framed c ops s).setPwu (heard s)

theorem exec_laneSet {ops : List Byte} {s : State} (h : Hears .laneSet ops s) : exec (.laneSet (Frame.ofOperands ops)) s
    = .next (settle (toLane .laneSet ops false (takeLaneSet ops (handed .laneSet ops s)) (handed .laneSet ops s))) := by
  have ⟨opened, power, link, length, _⟩ := h
  have ⟨running, _, _, _, _, op, _⟩ := opened
  refine (live_next running).trans (congrArg (fun t => Host.Outcome.next (settle t)) ?_)
  refine (commandTaken_ready opened link length).trans ?_
  exact congrArg (fun t => toLane .laneSet ops false (takeLaneSet ops t) t)
    (takingActivity_run (s := framed .laneSet ops s) op power)

theorem exec_laneEnable {ops : List Byte} {s : State} (h : Hears .laneEnable ops s) :
    exec (.laneEnable (Frame.ofOperands ops)) s = .next (settle
      (toLane .laneEnable ops false (takeLaneEnable ops (handed .laneEnable ops s)) (handed .laneEnable ops s))) := by
  have ⟨opened, power, link, length, _⟩ := h
  have ⟨running, _, _, _, _, op, _⟩ := opened
  refine (live_next running).trans (congrArg (fun t => Host.Outcome.next (settle t)) ?_)
  refine (commandTaken_ready opened link length).trans ?_
  exact congrArg (fun t => toLane .laneEnable ops false (takeLaneEnable ops t) t)
    (takingActivity_run (s := framed .laneEnable ops s) op power)

theorem takeLaneSet_busy {ops : List Byte} {s : State} (hl : loadAllInFlight s = true) : takeLaneSet ops s = .error .busy := by
  rw [takeLaneSet, if_pos hl]

theorem takeLaneEnable_busy {ops : List Byte} {s : State} (hl : loadAllInFlight s = true) :
    takeLaneEnable ops s = .error .busy := by
  rw [takeLaneEnable, if_pos hl]

theorem takeLaneSet_accepted {ops : List Byte} {i : Fin 4} {c : LaneConfig} {s : State} (hl : loadAllInFlight s = false)
    (hi : byteAt ops 0 = i.val) (hc : parseLaneConfig (bytesAt ops 1 24) = some c) :
    takeLaneSet ops s = .ok (installConfig i c s) := by
  rw [takeLaneSet, if_neg (by rw [hl]; nofun), laneOf_val.2 hi, hc]

theorem takeLaneEnable_accepted {ops : List Byte} {i : Fin 4} {s : State} (hl : loadAllInFlight s = false)
    (hi : byteAt ops 0 = i.val) (ho : byteAt ops 1 ≤ 1) :
    takeLaneEnable ops s = .ok (installEnable i (byteAt ops 1 = 1) s) := by
  rw [takeLaneEnable, if_neg (by rw [hl]; nofun), laneOf_val.2 hi, flagOf_some ho]

theorem takeLaneSet_refused {ops : List Byte} {s : State} (hl : loadAllInFlight s = false)
    (h : 3 < byteAt ops 0 ∨ parseLaneConfig (bytesAt ops 1 24) = none) : takeLaneSet ops s = .error .badOperand := by
  rw [takeLaneSet, if_neg (by rw [hl]; nofun)]
  rcases h with h | h
  · rw [laneOf_isNone.2 h]
  · rw [h]
    cases laneOf (byteAt ops 0) <;> rfl

theorem takeLaneEnable_refused {ops : List Byte} {s : State} (hl : loadAllInFlight s = false)
    (h : 3 < byteAt ops 0 ∨ 1 < byteAt ops 1) : takeLaneEnable ops s = .error .badOperand := by
  rw [takeLaneEnable, if_neg (by rw [hl]; nofun)]
  rcases h with h | h
  · rw [laneOf_isNone.2 h]
  · rw [flagOf_none.2 h]
    cases laneOf (byteAt ops 0) <;> rfl

/-- Two roles of a kind whose entries are above 15 or the same (R19). -/
theorem laneSet_roles {e : List Byte} {a b : Nat} (h : rolePlaces (byteAt e 0) (max 1 (min 4 (byteAt e 8))) = [a, b])
    (hab : a ≠ b) (hr : 15 < byteAt e (13 + a) ∨ 15 < byteAt e (13 + b) ∨ byteAt e (13 + a) = byteAt e (13 + b)) :
    ConfigRefused e := by
  unfold ConfigRefused
  rw [h]
  rcases hr with hr | hr | hr
  · exact .inr (.inr (.inr (.inr (.inr (.inr (.inr (.inl ⟨a, by simp, hr⟩)))))))
  · exact .inr (.inr (.inr (.inr (.inr (.inr (.inr (.inl ⟨b, by simp, hr⟩)))))))
  · exact .inr (.inr (.inr (.inr (.inr (.inr (.inr (.inr ⟨a, by simp, b, by simp, hab, hr⟩)))))))

/-- The checks of LANE-SET that its operands spell. -/
theorem laneSet_checks {ops : List Byte} (hl : ops.length = 25)
    (h : 3 < byteAt ops 0 ∨ 3 < byteAt ops 1
      ∨ (byteAt ops 1 ≠ 3 ∧ (byteAt ops 2 ∉ [1, 2, 4] ∨ byteAt ops 3 ∉ [1, 2]))
      ∨ 1 < byteAt ops 4 ∨ 3 < byteAt ops 7 ∨ 1 < byteAt ops 8 ∨ 1 < byteAt ops 10 ∨ 2 < byteAt ops 11
      ∨ (byteAt ops 1 = 1 ∧ (15 < byteAt ops 14 ∨ 15 < byteAt ops 15 ∨ byteAt ops 14 = byteAt ops 15))
      ∨ (byteAt ops 1 = 3 ∧ (15 < byteAt ops 23 ∨ 15 < byteAt ops 24 ∨ byteAt ops 23 = byteAt ops 24))
      ∨ parseLaneConfig (bytesAt ops 1 24) = none) :
    3 < byteAt ops 0 ∨ parseLaneConfig (bytesAt ops 1 24) = none := by
  rw [parseLaneConfig_none (length_bytesAt (by omega))] at h ⊢
  have byte (k : Nat) (hk : k < 24) : byteAt (bytesAt ops 1 24) k = byteAt ops (1 + k) := byteAt_bytesAt hk
  rcases h with h | h | h | h | h | h | h | h | ⟨kind, h⟩ | ⟨kind, h⟩ | h
  · exact .inl h
  · exact .inr (.inl (by rwa [byte 0 (by omega)]))
  · exact .inr (.inr (.inr (.inr (.inr (.inr (.inr (.inl (by
      rw [byte 0 (by omega), byte 1 (by omega), byte 2 (by omega)]
      exact h))))))))
  · exact .inr (.inr (.inl (by rwa [byte 3 (by omega)])))
  · exact .inr (.inr (.inr (.inl (by rwa [byte 6 (by omega)]))))
  · exact .inr (.inr (.inr (.inr (.inl (by rwa [byte 7 (by omega)])))))
  · exact .inr (.inr (.inr (.inr (.inr (.inl (by rwa [byte 9 (by omega)]))))))
  · exact .inr (.inr (.inr (.inr (.inr (.inr (.inl (by rwa [byte 10 (by omega)])))))))
  · have places : rolePlaces (byteAt (bytesAt ops 1 24) 0) (max 1 (min 4 (byteAt (bytesAt ops 1 24) 8))) = [0, 1] := by
      rw [byte 0 (by omega), kind]
      rfl
    exact .inr (laneSet_roles places (by omega) (by rwa [byte (13 + 0) (by omega), byte (13 + 1) (by omega)]))
  · have places : rolePlaces (byteAt (bytesAt ops 1 24) 0) (max 1 (min 4 (byteAt (bytesAt ops 1 24) 8))) = [9, 10] := by
      rw [byte 0 (by omega), kind]
      rfl
    exact .inr (laneSet_roles places (by omega) (by rwa [byte (13 + 9) (by omega), byte (13 + 10) (by omega)]))
  · exact .inr h

/-- Settles O18: the checks by `parseLaneConfig_none`, the restart by `restart_eq`. -/
theorem laneCommandsRestartTheLane : Obligations.LaneCommandsRestartTheLane := by
  rintro s ops f rfl
  refine ⟨fun h => ⟨fun hl => ?_, fun hl hn => ?_, fun i c hl hi hc => ?_⟩,
    fun h => ⟨fun hl => ?_, fun hl hn => ?_, fun i hl hi ho => ?_⟩,
    fun e he => ⟨parseLaneConfig_none he, fun c hc => parseLaneConfig_given he hc⟩, restart_eq⟩
  · rw [exec_laneSet h, takeLaneSet_busy (s := handed .laneSet ops s) hl]
    rfl
  · have ⟨_, _, _, length, _⟩ := h
    rw [exec_laneSet h, takeLaneSet_refused (s := handed .laneSet ops s) hl (laneSet_checks length hn)]
    rfl
  · rw [exec_laneSet h, takeLaneSet_accepted (s := handed .laneSet ops s) hl hi hc]
    rfl
  · rw [exec_laneEnable h, takeLaneEnable_busy (s := handed .laneEnable ops s) hl]
    rfl
  · rw [exec_laneEnable h, takeLaneEnable_refused (s := handed .laneEnable ops s) hl hn]
    rfl
  · rw [exec_laneEnable h, takeLaneEnable_accepted (s := handed .laneEnable ops s) hl hi ho]
    rfl

end Sys2Proof.Machine
end

section
/-! PROOF. The store image, spelled from R193, R200 and R201, and PROFILE-LOAD and PROFILE-STORE (R192, R193). -/

namespace Sys2Proof.Machine

/-! ### Lists of a known length -/

theorem toList_four {α : Type} (v : Vector α 4) : v.toList = [v[0], v[1], v[2], v[3]] := by
  obtain ⟨⟨l⟩, hl⟩ := v
  match l, hl with
  | [_, _, _, _], _ => rfl

theorem toList_sixteen {α : Type} (v : Vector α 16) : v.toList = (List.finRange 16).map fun i => v[i] := by
  refine List.ext_getElem (by simp) fun k _ _ => ?_
  simp

/-! ### The settings block -/

/-- The codes of a configuration that its stored bytes use. -/
theorem configCodes_code (c : LaneConfig) : configCodes c
    = (c.kind.code.toNat, c.byteOrder.code.toNat, c.bitOrder.code.toNat, c.polarity.code.toNat, c.autoinc.code.toNat) := by
  have kind : c.kind.code.toNat = match c.kind with | .none => 0 | .twoWire => 1 | .fourWire => 2 | .management => 3 := by
    cases c.kind <;> rfl
  have byteOrder : c.byteOrder.code.toNat = match c.byteOrder with | .big => 0 | .little => 1 := by
    cases c.byteOrder <;> rfl
  have bitOrder : c.bitOrder.code.toNat = match c.bitOrder with | .msbFirst => 0 | .lsbFirst => 1 := by
    cases c.bitOrder <;> rfl
  have polarity : c.polarity.code.toNat = match c.polarity with | .readIsOne => 0 | .readIsZero => 1 := by
    cases c.polarity <;> rfl
  have autoinc : c.autoinc.code.toNat = match c.autoinc with | .always => 0 | .never => 1 | .flag => 2 := by
    cases c.autoinc <;> rfl
  rw [kind, byteOrder, bitOrder, polarity, autoinc]
  rfl

theorem codeOfWidth_eq {w : Nat} (h : w = 1 ∨ w = 2 ∨ w = 4) : codeOfWidth w = w / 2 := by
  rcases h with rfl | rfl | rfl <;> rfl

/-- The five bytes of a stored lane entry after the first (R201). -/
theorem entryFields_eq {c : LaneConfig} (h : c.Law) : byteOf c.entryOptions :: nibbleBytes c.entryFields
    = (match c.kind with
      | .none => [0, 0, 0, 0, 0]
      | .twoWire => [oneIf c.tenBit, 16 * c.pins.twoClock.val + c.pins.twoData.val, 0, 0, 0]
      | .fourWire =>
        [64 * c.clockMode + 32 * c.bitOrder.code.toNat + 8 * (c.selectCount - 1) + 4 * c.polarity.code.toNat
            + c.autoinc.code.toNat,
          16 * c.pins.fourClock.val + (if 0 < c.selectCount then (c.pins.sel[(0 : Fin 4)]).val else 0),
          16 * (if 1 < c.selectCount then (c.pins.sel[(1 : Fin 4)]).val else 0)
            + (if 2 < c.selectCount then (c.pins.sel[(2 : Fin 4)]).val else 0),
          16 * (if 3 < c.selectCount then (c.pins.sel[(3 : Fin 4)]).val else 0) + c.pins.cdat.val,
          16 * c.pins.tdat.val + c.latency]
      | .management => [c.preamble, 16 * c.pins.mgmtClock.val + c.pins.mgmtData.val, 0, 0, 0]).map
      (BitVec.ofNat 8) := by
  obtain ⟨_, _, _, low, high, _, _⟩ := h
  unfold LaneConfig.entryOptions LaneConfig.entryFields
  cases c.kind with
  | none => rfl
  | twoWire => simp [bitAt_eq, nibbleBytes, nibblePair, byteOf]
  | management => simp [nibbleBytes, nibblePair, byteOf]
  | fourWire =>
    rw [toList_four]
    generalize c.selectCount = n at low high
    interval_cases n <;> rfl

theorem laneEntry_eq {l : Lane} (h : l.cfg.Law) : l.entry = storedLane l := by
  have ⟨width, _⟩ := h
  have first : 64 * l.cfg.kind.code.toNat + 16 * codeOfWidth l.cfg.w + 8 * (l.cfg.a - 1) + 4 * l.cfg.byteOrder.code.toNat
      + bitAt 1 l.cfg.activity + bitAt 0 l.enabled
      = 64 * l.cfg.kind.code.toNat + 16 * (l.cfg.w / 2) + 8 * (l.cfg.a - 1) + 4 * l.cfg.byteOrder.code.toNat
        + 2 * oneIf l.cfg.activity + oneIf l.enabled := by
    rw [codeOfWidth_eq width, bitAt_eq, bitAt_eq, Nat.pow_zero, Nat.one_mul, Nat.pow_one]
  unfold storedLane
  rw [configCodes_code]
  dsimp only
  refine Eq.trans (congrArg (fun n => byteOf n :: (byteOf l.cfg.entryOptions :: nibbleBytes l.cfg.entryFields)) first) ?_
  rw [entryFields_eq h]
  rfl

theorem trapEntry_eq (t : Trap) : t.entry = storedWindow t := by
  have mode : t.mode.code.toNat = trapModeCode t.mode := by cases t.mode <;> rfl
  have dir : t.dir.code.toNat = trapDirCode t.dir := by cases t.dir <;> rfl
  unfold Trap.entry storedWindow
  simp only [beBytes_two, mode, dir, Nat.reducePow]

theorem beNat_beBytes_four {n : Nat} (h : n < 2 ^ 32) : beNat (beBytes 4 n) = n := by
  simp [beNat, beBytes]
  omega

theorem fourBytes_congr {n high low : Nat} (hh : n / 65536 % 65536 = high % 65536) (hl : n % 65536 = low % 65536) :
    beBytes 4 n = twoBytes high ++ twoBytes low := by
  rw [beBytes_four, fourBytes, twoBytes_congr hh, twoBytes_congr hl]

theorem twoBytes_small {n : Nat} (h : n < 256) : twoBytes n = [0, BitVec.ofNat 8 n] := by
  rw [twoBytes, Nat.div_eq_of_lt h]
  rfl

theorem storedRow_format (r : Row) : storedRow r = match r.binding with
    | .empty => twoBytes (1024 * r.format.code) ++ [0, 0]
    | .record k => twoBytes (k.lane.val * 16384 + 1024 * (3 + r.format.code) + k.target.toNat) ++ twoBytes k.register.toNat
    | .probe p => twoBytes (1024 * (6 + r.format.code)) ++ [0, BitVec.ofNat 8 p.val]
    | .watch n => twoBytes (1024 * (9 + r.format.code)) ++ [0, BitVec.ofNat 8 n.val]
    | .auto => twoBytes (1024 * (12 + r.format.code)) ++ [0, 0] := by
  obtain ⟨binding, format, _⟩ := r
  cases format <;> rfl

theorem rowEntry_eq (r : Row) : r.entry = storedRow r := by
  obtain ⟨binding, format, rebound⟩ := r
  have small : format.code < 3 := by cases format <;> decide
  rw [storedRow_format]
  unfold Row.entry
  dsimp only
  cases binding with
  | empty =>
    have number : beNat Binding.empty.argument = 0 := rfl
    simp only [number, Binding.code]
    exact fourBytes_congr (low := 0) (by omega) (by omega)
  | auto =>
    have number : beNat Binding.auto.argument = 0 := rfl
    simp only [number, Binding.code]
    exact fourBytes_congr (low := 0) (by omega) (by omega)
  | record k =>
    have target := k.target.isLt
    have register := k.register.isLt
    have number : beNat (Binding.record k).argument = _ := beNat_beBytes_four (by omega)
    simp only [number, Binding.code]
    exact fourBytes_congr (by omega) (by omega)
  | probe p =>
    have number : beNat (Binding.probe p).argument = p.val := beNat_beBytes_four (by omega)
    simp only [number, Binding.code]
    rw [← twoBytes_small (by omega)]
    exact fourBytes_congr (by omega) (by omega)
  | watch n =>
    have number : beNat (Binding.watch n).argument = n.val := beNat_beBytes_four (by omega)
    simp only [number, Binding.code]
    rw [← twoBytes_small (by omega)]
    exact fourBytes_congr (by omega) (by omega)

theorem edgeBytes_eq (v : Vector WakeEdge 16) : edgeBytes (v.toList.map WakeEdge.code)
    = (([0, 4, 8, 12] : List (Fin 16)).map fun i : Fin 16 => 64 * wakeEdgeCode v[i] + 16 * wakeEdgeCode v[i + 1]
        + 4 * wakeEdgeCode v[i + 2] + wakeEdgeCode v[i + 3]).map (BitVec.ofNat 8) := by
  rw [toList_sixteen, funext wakeEdge_code]
  rfl

theorem settingsBlock_eq {s : State} (h : ∀ i : Fin 4, (s.lanes[i]).cfg.Law) : s.settingsBlock = settingsBytes s := by
  have lanes : s.lanes.toList.map Lane.entry = s.lanes.toList.map storedLane := by
    rw [toList_four]
    simp only [List.map_cons, List.map_nil, show (s.lanes[0]).entry = _ from laneEntry_eq (h 0),
      show (s.lanes[1]).entry = _ from laneEntry_eq (h 1), show (s.lanes[2]).entry = _ from laneEntry_eq (h 2),
      show (s.lanes[3]).entry = _ from laneEntry_eq (h 3)]
  have banks : (s.pfe.banks.toList.map fun b => [byteOf b.code, byteOf b.width]).flatten
      = [(s.pfe.banks[0]).code, (s.pfe.banks[0]).width, (s.pfe.banks[1]).code, (s.pfe.banks[1]).width].map
        (BitVec.ofNat 8) := by
    generalize s.pfe.banks = v
    obtain ⟨⟨l⟩, hl⟩ := v
    match l, hl with
    | [_, _], _ => rfl
  unfold State.settingsBlock settingsBytes
  rw [banks, lanes, funext trapEntry_eq, funext rowEntry_eq, edgeBytes_eq]
  simp only [List.flatMap_def, bitAt_eq, setBytes_eq, nibblePair, byteOf, Nat.reducePow, List.map_cons,
    List.map_nil, List.append_assoc, List.cons_append, List.nil_append]

/-! ### Seeds and the image -/

theorem padRight_eq {n : Nat} {l : List Byte} (h : l.length ≤ n) : padRight n l = column n l := by
  unfold padRight column spaces
  rw [List.take_append, List.take_of_length_le h, List.take_replicate, Nat.min_eq_left (Nat.sub_le n _)]

theorem seedBytes_eq {r : Record} (h : ∀ l, r.label = some l → l.length ≤ 12) : r.seedBytes = storedSeed r := by
  have short : (r.label.getD []).length ≤ 12 := by
    cases hl : r.label with
    | none => exact Nat.zero_le _
    | some l => exact h l hl
  have length : (r.label.getD []).length = r.label.elim 0 List.length := by cases r.label <;> rfl
  unfold Record.seedBytes storedSeed
  simp only [keyBytes_eq, boolByte_eq, optWordBytes_eq, bitAt_eq, padRight_eq short, length, byteOf, Nat.pow_zero, Nat.one_mul,
    Nat.pow_one]
  rfl

/-- The sum of bytes as numbers, modulo 256 (R193). -/
theorem byteSum_toNat (bs : List Byte) (b : Byte) :
    (bs.foldl (· + ·) b).toNat = (b.toNat + (bs.map BitVec.toNat).sum) % 256 := by
  induction bs generalizing b with
  | nil => simp; omega
  | cons c bs ih =>
    rw [List.foldl_cons, ih, List.map_cons, List.sum_cons, BitVec.toNat_add]
    omega

theorem byteSum_append (a b : List Byte) : byteSum (a ++ b) = byteSum a + byteSum b := by
  have sum (bs : List Byte) : (byteSum bs).toNat = (bs.map BitVec.toNat).sum % 256 := by
    exact (byteSum_toNat bs 0).trans (by simp)
  refine BitVec.eq_of_toNat_eq ?_
  rw [BitVec.toNat_add, sum, sum, sum]
  simp

/-- The adjust byte, put in the place of a 0, brings the sum to 0 modulo 256 (R193). -/
theorem adjusted_sum (a b : List Byte) :
    ((a ++ adjustByte (a ++ 0 :: b) :: b).map BitVec.toNat).sum % 256 = 0 := by
  have zero : byteSum (a ++ adjustByte (a ++ 0 :: b) :: b) = 0 := by
    have cons (c : Byte) : byteSum (c :: b) = c + byteSum b := by
      rw [show c :: b = [c] ++ b from rfl, byteSum_append]
      simp [byteSum]
    rw [byteSum_append, cons, adjustByte, byteSum_append, cons]
    ring
  have sum := byteSum_toNat (a ++ adjustByte (a ++ 0 :: b) :: b) 0
  rw [show List.foldl _ _ _ = byteSum _ from rfl, zero] at sum
  simpa using sum.symm

/-- The header of an image before its adjust byte (R193). -/
def imageHead (seeds : Nat) : List Byte := [0x4E, 0x57, 0xB1, 0xA8, 0x01] ++ beBytes 2 seeds ++ [0x00, 0x80]

/-- The image of a store: the header, its adjust byte, the settings and the seeds (R193, R200). -/
theorem storeImage_bytes {s : State} {seeds : List Record} (h : seeds = (s.rte.table.filter Record.qualifies).take 256) :
    s.storeImage.bytes = imageHead seeds.length ++ adjustByte (imageHead seeds.length ++ 0 :: ([0, 0, 0, 0, 0, 0]
        ++ (s.settingsBlock ++ (seeds.map Record.seedBytes).flatten)))
      :: ([0, 0, 0, 0, 0, 0] ++ (s.settingsBlock ++ (seeds.map Record.seedBytes).flatten)) := by
  rw [h]
  rfl

theorem serveProfileLoad_refused {ops : List Byte} (s : State) (h : 1 < byteAt ops 0) :
    serveProfileLoad ops s = (s, .refuse .badOperand) := by
  rw [serveProfileLoad, scopeOf, if_neg (by omega), if_neg (by omega)]

theorem scopeOf_le {n : Nat} (h : n ≤ 1) : scopeOf n = some (if n = 0 then .seeds else .all) := by
  have : n = 0 ∨ n = 1 := by omega
  rcases this with rfl | rfl <;> rfl

theorem profileBusy_iff {s : State} : profileBusy s = true ↔ s.pim.op ≠ .none := by
  simp [profileBusy]

theorem serveProfileLoad_busy {ops : List Byte} {s : State} (h : byteAt ops 0 ≤ 1) (hb : s.pim.op ≠ .none) :
    serveProfileLoad ops s = (s, .refuse .busy) := by
  rw [serveProfileLoad, scopeOf_le h]
  dsimp only
  rw [if_pos (profileBusy_iff.2 hb)]

theorem serveProfileLoad_begins {ops : List Byte} {s : State} (h : byteAt ops 0 ≤ 1) (hb : s.pim.op = .none) :
    serveProfileLoad ops s = (s.setPim { s.pim with
        op := .load ⟨if byteAt ops 0 = 0 then .seeds else .all, .reading, none, 0, 0, 0, []⟩ },
      ⟨.ok, [byteOf (byteAt ops 0)]⟩) := by
  rw [serveProfileLoad, scopeOf_le h]
  dsimp only
  rw [if_neg (fun busy => profileBusy_iff.1 busy hb)]
  rfl

theorem serveProfileStore_busy {s : State} (hb : s.pim.op ≠ .none) : serveProfileStore s = (s, .refuse .busy) := by
  rw [serveProfileStore, if_pos (profileBusy_iff.2 hb)]

theorem serveProfileStore_begins {s : State} (hb : s.pim.op = .none) : serveProfileStore s
    = (s.setPim { s.pim with image := s.storeImage, op := .store .invalidate },
      ⟨.ok, beBytes 2 s.storeImage.seeds ++ [boolByte s.storeImage.truncated]⟩) := by
  rw [serveProfileStore, if_neg (fun busy => profileBusy_iff.1 busy hb)]

theorem settingsBlock_taken (c : Cmd) (ops : List Byte) (s : State) : (taken c ops s).settingsBlock = s.settingsBlock := by
  unfold State.settingsBlock taken
  dsimp only
  unfold heard
  split <;> rfl

/-- Settles O23: the settings by `settingsBlock_eq`, the seeds by `seedBytes_eq`, the image by `storeImage_bytes`. -/
theorem profileCommandsBegin : Obligations.ProfileCommandsBegin := by
  refine ⟨fun s h => settingsBlock_eq h, fun r h => seedBytes_eq h, ?_⟩
  rintro s ops f rfl
  refine ⟨fun h => ⟨fun hn => ?_, fun ho hb => ?_, fun ho hf => ?_⟩, fun h => ⟨fun hb => ?_, fun seeded hf hs => ?_⟩⟩
  · exact exec_answered h nofun nofun nofun rfl (serveProfileLoad_refused _ hn) rfl
  · exact exec_answered h nofun nofun nofun rfl (serveProfileLoad_busy (s := taken .profileLoad ops s) ho hb) rfl
  · exact exec_answered h nofun nofun nofun rfl (serveProfileLoad_begins (s := taken .profileLoad ops s) ho hf) rfl
  · exact exec_answered h nofun nofun nofun rfl (serveProfileStore_busy (s := taken .profileStore ops s) hb) rfl
  · have seeds : (taken .profileStore ops s).storeImage.seeds = min 256 seeded.length := by
      rw [hs]
      exact List.length_take
    have bytes := storeImage_bytes (s := taken .profileStore ops s) (seeds := seeded.take 256) (by rw [hs]; rfl)
    rw [settingsBlock_taken] at bytes
    have sum := adjusted_sum (imageHead (seeded.take 256).length)
      ([0, 0, 0, 0, 0, 0] ++ (s.settingsBlock ++ ((seeded.take 256).map Record.seedBytes).flatten))
    rw [← bytes] at sum
    refine ⟨(taken .profileStore ops s).storeImage,
      exec_answered h nofun nofun nofun rfl (serveProfileStore_begins (s := taken .profileStore ops s) hf) rfl, seeds,
      by rw [hs]; rfl, ?_, ?_, sum, ?_⟩
    · rw [bytes, seeds, List.length_take]
      rfl
    · rw [bytes]
      rfl
    · rw [bytes]
      rfl

end Sys2Proof.Machine
end

section
/-! SUPPORT. Commands served at LINK with an effect, and the table as they read it: keys, record bytes, the records of a WALK,
the eviction candidate (R85, R93, R104 to R107, R196, R198). -/

namespace Sys2Proof.Machine

/-! ### Service at LINK with an effect -/

/-- A command served at LINK leaves what its service leaves, with the unit ended and the answer sent (R89, R176). -/
theorem exec_served {c : Cmd} {ops : List Byte} {a : Answer} {s t : State} (h : WaitsAtLink c ops s)
    (hc : ownerOf c ops = .rte) (hs : serve c ops (dequeue ⟨c, ops, false⟩ s) = (t, a))
    (ht : t.ctl = (dequeue ⟨c, ops, false⟩ s).ctl) :
    live (commandAt .served c (Frame.ofOperands ops)) s = .next (settle
      ((t.setRte { t.rte with last := .link, serving := none }).setCtl (servedCtl c ops a s))) := by
  have noReset : c ≠ .restart := by
    rintro rfl
    cases hc
  rw [live_commandServed_link h hc, hs]
  simp [finishUnit_eq, sendAnswer, ht, dequeue, servedCtl, noReset, State.setCtl, State.setRte]

/-! ### Keys and records in bytes -/

theorem keyOf_iff (a b c d : Byte) (k : Key) : keyOf [a, b, c, d] = k ↔ k.lane.val = a.toNat / 64
    ∧ k.target.toNat = a.toNat % 4 * 256 + b.toNat ∧ k.register.toNat = c.toNat * 256 + d.toNat := by
  have ha := a.isLt
  have hb := b.isLt
  have hc := c.isLt
  have hd := d.isLt
  have number : beNat [a, b, c, d] = ((a.toNat * 256 + b.toNat) * 256 + c.toNat) * 256 + d.toNat := by simp [beNat]
  have lane : (keyOf [a, b, c, d]).lane.val = a.toNat / 64 := by
    simp only [keyOf, number, Fin.ofNat]
    omega
  have target : (keyOf [a, b, c, d]).target.toNat = a.toNat % 4 * 256 + b.toNat := by
    simp only [keyOf, number, BitVec.toNat_ofNat]
    omega
  have register : (keyOf [a, b, c, d]).register.toNat = c.toNat * 256 + d.toNat := by
    simp only [keyOf, number, BitVec.toNat_ofNat]
    omega
  constructor
  · rintro rfl
    exact ⟨lane, target, register⟩
  · rintro ⟨hl, ht, hr⟩
    obtain ⟨kl, kt, kr⟩ := k
    have el : (keyOf [a, b, c, d]).lane = kl := Fin.ext (lane.trans hl.symm)
    have et : (keyOf [a, b, c, d]).target = kt := BitVec.eq_of_toNat_eq (target.trans ht.symm)
    have er : (keyOf [a, b, c, d]).register = kr := BitVec.eq_of_toNat_eq (register.trans hr.symm)
    rw [← el, ← et, ← er]

/-- The 48 bytes of a record (R104, R198). -/
theorem recordBytes_eq {r : Record} (epoch : Nat) (h : ∀ l, r.label = some l → l.length ≤ 12) :
    r.bytes epoch = recordBytes epoch r := by
  have label : r.label.elim (beBytes 12 0) (padRight 12) = r.label.elim (List.replicate 12 0) (column 12) := by
    cases hl : r.label with
    | none => rfl
    | some l => exact padRight_eq (h l hl)
  have length : (r.label.getD []).length * 16 = 16 * r.label.elim 0 List.length := by
    cases r.label <;> simp [Nat.mul_comm]
  have held : r.heldValue = match r.held with
      | some (.value v) => some v
      | some .none | none => none := by
    unfold Record.heldValue
    rcases r.held with _ | _ | _ <;> rfl
  have origin : r.seen.elim false (fun x => decide (x.origin = .read)) = r.seen.any fun x => x.origin = .read := by
    cases r.seen <;> rfl
  unfold Record.bytes recordBytes
  simp only [keyBytes_eq, optWordBytes_eq, beBytes_two, byteOf, Record.presence, Record.flagByte, bitAt_eq, label, length, held,
    origin, Record.value, Nat.reducePow, Nat.one_mul]
  rfl

/-! ### The records of a WALK -/

/-- Some record lies above the last one that a WALK returns exactly when records at or above the cursor are left over (R106). -/
theorem walk_above {t above : List Record} {cursor : Key} {n : Nat} {r : Record}
    (ht : (t.map fun x => x.key.num).Pairwise (· < ·)) (ha : above = t.filter fun x => cursor.num ≤ x.key.num)
    (hr : (above.take n).getLast? = some r) : (∃ x ∈ t, r.key.num < x.key.num) ↔ n < above.length := by
  have rising : above.Pairwise fun a b => a.key.num < b.key.num := by
    rw [ha]
    exact (List.pairwise_map.1 ht).filter _
  have parts := List.take_append_drop n above
  rw [← parts] at rising
  obtain ⟨_, _, apart⟩ := List.pairwise_append.1 rising
  obtain ⟨front, hfront⟩ := List.getLast?_eq_some_iff.1 hr
  have returned : r ∈ above.take n := by
    rw [hfront]
    simp
  have reached : cursor.num ≤ r.key.num := by
    have mem := List.mem_of_mem_take returned
    rw [ha] at mem
    simpa using (List.mem_filter.1 mem).2
  constructor
  · rintro ⟨x, hx, hlt⟩
    by_contra hn
    have whole : above.take n = above := List.take_of_length_le (Nat.not_lt.1 hn)
    have inside : x ∈ above.take n := by
      rw [whole, ha]
      exact List.mem_filter.2 ⟨hx, by simpa using reached.trans hlt.le⟩
    have order := (List.pairwise_append.1 rising).1
    rw [hfront] at inside order
    rcases List.mem_append.1 inside with h | h
    · exact absurd ((List.pairwise_append.1 order).2.2 x h r (by simp)) (by omega)
    · rw [List.mem_singleton.1 h] at hlt
      omega
  · intro hn
    obtain ⟨x, hx⟩ := List.exists_mem_of_ne_nil (above.drop n) (by simpa using hn)
    have mem := List.mem_of_mem_drop hx
    rw [ha] at mem
    exact ⟨x, (List.mem_filter.1 mem).1, apart r returned x hx⟩

theorem walkEnd_eq {t above : List Record} {cursor : Key} {n : Nat} (ht : (t.map fun x => x.key.num).Pairwise (· < ·))
    (ha : above = t.filter fun x => cursor.num ≤ x.key.num) (hn : n ≠ 0) :
    walkEnd t (above.take n) = decide (above.length ≤ n) := by
  unfold walkEnd
  cases hr : (above.take n).getLast? with
  | none =>
    have empty : above = [] := by
      simpa [hn] using List.getLast?_eq_none_iff.1 hr
    simp [empty]
  | some r =>
    have := walk_above ht ha hr
    rw [Bool.eq_iff_iff, decide_eq_true_iff, ← Nat.not_lt, ← this]
    simp

theorem Key.next_of_below {k k' : Key} (h : k.num < k'.num) : ∃ n, k.next = some n ∧ n.num = k.num + 1 := by
  have room : k.num + 1 < 2 ^ 28 := by
    have := k'.num_lt
    omega
  exact ⟨_, if_pos room, Key.num_ofNum room⟩

/-! ### Eviction -/

theorem colder_iff {e : Nat} {a b : Record} : colder e a b = true ↔ decayedHeat a e < decayedHeat b e
    ∨ (decayedHeat a e = decayedHeat b e
      ∧ (a.lastAccess < b.lastAccess ∨ (a.lastAccess = b.lastAccess ∧ a.key.num < b.key.num))) := by
  simp [colder]

theorem pickColder_some (e : Nat) (t : List Record) (b : Record) : ∃ c, t.foldl (pickColder e) (some b) = some c
    ∧ colder e b c = false ∧ ∀ r ∈ t, colder e r c = false := by
  induction t generalizing b with
  | nil => exact ⟨b, rfl, by simp [colder], fun _ h => absurd h List.not_mem_nil⟩
  | cons x t ih =>
    have step : List.foldl (pickColder e) (some b) (x :: t)
        = List.foldl (pickColder e) (some (if colder e x b then x else b)) t := by
      rw [List.foldl_cons, pickColder]
      split <;> rfl
    obtain ⟨c, hc, hbest, hrest⟩ := ih (if colder e x b then x else b)
    refine ⟨c, step.trans hc, ?_, ?_⟩
    · split at hbest
      · next hx =>
        rw [Bool.eq_false_iff, Ne, colder_iff] at hbest ⊢
        rw [colder_iff] at hx
        omega
      · exact hbest
    · intro r hr
      rcases List.mem_cons.1 hr with rfl | hr
      · split at hbest
        · exact hbest
        · next hx =>
          rw [colder_iff] at hx
          rw [Bool.eq_false_iff, Ne, colder_iff] at hbest ⊢
          omega
      · exact hrest r hr

theorem evictable_iff {r : Record} : r.evictable = true ↔ r.pinned = false ∧ r.watch = none := by
  simp [Record.evictable]

/-- A table with an unprotected record has an eviction candidate: the coldest of them (R93). -/
theorem evictionCandidate_coldest {s : State} (h : TableLaw s)
    (hex : ∃ r ∈ s.rte.table, r.pinned = false ∧ r.watch = none) :
    ∃ c ∈ s.rte.table, c.pinned = false ∧ c.watch = none ∧ evictionCandidate s.rte.epoch s.rte.table = some c
      ∧ ∀ r ∈ s.rte.table, r.pinned = false → r.watch = none → r ≠ c → colder s.rte.epoch c r = true := by
  obtain ⟨x, hx, hpin, hwatch⟩ := hex
  obtain ⟨b, t, split⟩ := List.exists_cons_of_ne_nil
    (List.ne_nil_of_mem (List.mem_filter.2 ⟨hx, evictable_iff.2 ⟨hpin, hwatch⟩⟩))
  obtain ⟨c, hc, hb, ht⟩ := pickColder_some s.rte.epoch t b
  have chosen : evictionCandidate s.rte.epoch s.rte.table = some c := by
    rw [evictionCandidate, split]
    exact hc
  obtain ⟨hmem, hcp, hcw⟩ := evictionCandidate_spec chosen
  refine ⟨c, hmem, hcp, hcw, chosen, fun r hr hp hw hne => ?_⟩
  have least : colder s.rte.epoch r c = false := by
    have inside : r ∈ b :: t := split ▸ List.mem_filter.2 ⟨hr, evictable_iff.2 ⟨hp, hw⟩⟩
    rcases List.mem_cons.1 inside with rfl | h
    · exact hb
    · exact ht r h
  have apart : r.key.num ≠ c.key.num := fun hk => hne (h.record_inj hr hmem (Key.num_inj hk))
  rw [Bool.eq_false_iff, Ne, colder_iff] at least
  rw [colder_iff]
  omega

theorem evictionCandidate_none {e : Nat} {t : List Record} (h : ∀ r ∈ t, r.pinned = true ∨ r.watch.isSome) :
    evictionCandidate e t = none := by
  have none_left : t.filter Record.evictable = [] := List.filter_eq_nil_iff.2 fun r hr he => by
    obtain ⟨hp, hw⟩ := evictable_iff.1 he
    rcases h r hr with h | h
    · exact absurd (hp.symm.trans h) nofun
    · rw [hw] at h
      cases h
  rw [evictionCandidate, none_left]
  rfl

/-- A key admitted to a table with room (R92). -/
theorem admitKey_room {k : Key} {w : Nat} {s : State} (h : s.rte.table.length < 1024) :
    admitKey k w s = (createRecord k w s, true) := if_pos h

/-- A key admitted to a full table by an eviction (R93). -/
theorem admitKey_evicts {k : Key} {w : Nat} {c : Record} {s : State} (h : 1024 ≤ s.rte.table.length)
    (hc : evictionCandidate s.rte.epoch s.rte.table = some c) (hw : c.watch = none) : admitKey k w s
      = (s.setRte { s.rte with
          table := insertRecord (newRecord k w s.rte.epoch) (s.rte.table.filter fun x => x.key ≠ c.key) }, true) := by
  have full : ¬ s.rte.table.length < Config.tableCapacity := Nat.not_lt.2 h
  rw [admitKey, if_neg full, hc]
  dsimp only
  rw [retireRecord_eq, hw]
  rfl

/-- A key refused by a full table that protects every record (R94). -/
theorem admitKey_full {k : Key} {w : Nat} {s : State} (h : 1024 ≤ s.rte.table.length)
    (hp : ∀ r ∈ s.rte.table, r.pinned = true ∨ r.watch.isSome) : admitKey k w s = (refuseAdmission k s, false) := by
  have full : ¬ s.rte.table.length < Config.tableCapacity := Nat.not_lt.2 h
  rw [admitKey, if_neg full, evictionCandidate_none hp]

end Sys2Proof.Machine
end

section
/-! PROOF. The commands of the RTE, served at LINK: LOOKUP, TABLE-INFO, WALK, WALK-FROM, SEED, AMEND, HOLD, WATCH-SET and TRAP-SET
(R101 to R114, R119, R130). -/

namespace Sys2Proof.Machine

/-! ### LOOKUP and TABLE-INFO -/

theorem serveLookup_absent {ops : List Byte} {s : State} (hl : ops.length = 4)
    (h : lookup (keyOf ops) s.rte.table = none) : serveLookup ops s = (s, .refuse .noRecord) := by
  rw [serveLookup, bytesAt_all hl, h]

theorem serveLookup_present {ops : List Byte} {r : Record} {s : State} (hl : ops.length = 4)
    (h : lookup (keyOf ops) s.rte.table = some r) : serveLookup ops s = (s, ⟨.ok, r.bytes s.rte.epoch⟩) := by
  rw [serveLookup, bytesAt_all hl, h]

/-- Settles O24: the bytes by `keyOf_iff`, `keyBytes_eq` and `recordBytes_eq`. -/
theorem tableReadsAreServed : Obligations.TableReadsAreServed := by
  refine ⟨keyOf_iff, keyBytes_eq, fun r epoch h => recordBytes_eq epoch h, ?_⟩
  rintro s ops f rfl
  refine ⟨fun h => ?_, fun h => ?_⟩
  · have ⟨⟨_, _, length, _⟩, _⟩ := h
    exact ⟨fun hk => live_commandServed_answer h rfl (serveLookup_absent length hk),
      fun r hk => live_commandServed_answer h rfl (serveLookup_present length hk)⟩
  · refine (live_commandServed_answer h rfl rfl).trans ?_
    show Host.Outcome.next (settle (servedAtLink _ _ ⟨.ok, _ ++ [boolByte s.rte.capture.isSome]
      ++ s.rte.capture.elim (absent4 ++ absent4) fun c => c.1.bytes ++ beBytes 4 c.2⟩ s)) = _
    cases s.rte.capture with
    | none => rfl
    | some c => simp [boolByte, List.append_assoc]; rfl

/-! ### WALK -/

theorem serveWalk_refused {ops : List Byte} (s : State) (h : byteAt ops 0 = 0) :
    serveWalk ops s = (s, .refuse .badOperand) := by
  rw [serveWalk, if_pos h]

theorem serveWalk_accepted {ops : List Byte} {above rs : List Record} {s : State} (h : byteAt ops 0 ≠ 0) (ht : TableLaw s)
    (ha : above = s.rte.table.filter fun r => s.rte.cursor.num ≤ r.key.num)
    (hrs : rs = above.take (min 16 (byteAt ops 0))) : serveWalk ops s
      = (s.setRte { s.rte with walkNote := some (walkCursor s.rte.table rs) },
        ⟨.ok, [byteOf rs.length, boolByte (decide (above.length ≤ min 16 (byteAt ops 0)))]
          ++ (rs.map (Record.bytes s.rte.epoch)).flatten⟩) := by
  have ends : walkEnd s.rte.table rs = decide (above.length ≤ min 16 (byteAt ops 0)) := by
    rw [hrs]
    exact walkEnd_eq ht.2 ha (by omega)
  have returned : walkTake s.rte.cursor (byteAt ops 0) s.rte.table = rs := by
    rw [hrs, ha]
    rfl
  rw [serveWalk, if_neg h]
  dsimp only
  rw [returned, ends]

/-- Settles O25: the end mark by `walkEnd_eq`, the key after the last record by `Key.next_of_below`. -/
theorem walkIsServed : Obligations.WalkIsServed := by
  rintro s ops f rfl ht
  refine ⟨fun h => ⟨fun hz => live_commandServed_answer h rfl (serveWalk_refused _ hz), fun above rs atEnd hn ha hrs he => ?_⟩,
    fun h => ?_⟩
  · have served := exec_served h rfl
      (serveWalk_accepted (s := dequeue ⟨.walk, ops, false⟩ s) hn ht ha hrs) rfl
    have ends : walkEnd s.rte.table rs = atEnd := by
      rw [hrs, he]
      exact walkEnd_eq ht.2 ha (by omega)
    rw [← he] at served
    refine ⟨walkCursor s.rte.table rs, served, fun hend => ?_, fun hend r hr => ?_⟩
    · rw [walkCursor, ends, hend, if_pos rfl]
      decide
    · rw [hend] at he
      have more := of_decide_eq_false he.symm
      obtain ⟨x, _, hx⟩ := (walk_above ht.2 ha (hrs ▸ hr)).2 (Nat.not_le.1 more)
      obtain ⟨n, hnext, hnum⟩ := Key.next_of_below hx
      rw [walkCursor, ends, hend, if_neg nofun, hr, Option.bind_some, hnext]
      exact hnum
  · have ⟨⟨_, _, length, _⟩, _⟩ := h
    have served : serve .walkFrom ops (dequeue ⟨.walkFrom, ops, false⟩ s)
        = ((dequeue ⟨.walkFrom, ops, false⟩ s).setRte { s.rte with cursor := keyOf ops }, ⟨.ok, []⟩) := by
      show serveWalkFrom ops _ = _
      rw [serveWalkFrom, bytesAt_all (n := 4) length]
      rfl
    exact exec_served h rfl served rfl

/-! ### SEED -/

/-- The keys that a lane's configuration can name (R26, R108). -/
theorem keyFits_iff (c : LaneConfig) (k : Key) : keyFits c k = true ↔ match c.kind with
    | .none => False
    | .twoWire => k.target.toNat ≤ (if c.tenBit then 1023 else 127) ∧ k.register.toNat ≤ 2 ^ (8 * c.a) - 1
    | .fourWire => k.target.toNat < c.selectCount
      ∧ k.register.toNat ≤ 2 ^ (if c.autoinc = .flag then 8 * c.a - 2 else 8 * c.a - 1) - 1
    | .management => k.target.toNat ≤ 31 ∧ k.register.toNat ≤ 31 := by
  have below (m n : Nat) : m < 2 ^ n ↔ m ≤ 2 ^ n - 1 := by
    have := Nat.two_pow_pos n
    omega
  unfold keyFits
  cases c.kind with
  | none => simp
  | twoWire =>
    cases c.tenBit <;> simp only [Bool.and_eq_true, decide_eq_true_eq, below] <;> simp <;> omega
  | fourWire =>
    by_cases flag : c.autoinc = .flag <;> simp [flag, below]
  | management =>
    simp
    omega

section
variable {ops : List Byte} {k : Key} {s : State} (hk : keyOf (bytesAt ops 0 4) = k) (hl : profileLoadInFlight s = false)
include hk hl

/-- SEED of a key that its lane cannot name (R108). -/
theorem serveSeed_unfit (hf : keyFits (s.lanes[k.lane]).cfg k = false) : serveSeed ops s = (s, .refuse .badOperand) := by
  subst hk
  unfold serveSeed
  dsimp only
  rw [if_neg (by rw [hl]; nofun), if_pos (by rw [hf]; rfl)]

variable (hf : keyFits (s.lanes[k.lane]).cfg k = true)
include hf

/-- SEED of a key that has a record (R108). -/
theorem serveSeed_existing (hr : ∃ r ∈ s.rte.table, r.key = k) : serveSeed ops s = (s, ⟨.ok, [0]⟩) := by
  subst hk
  unfold serveSeed
  dsimp only
  rw [if_neg (by rw [hl]; nofun), if_neg (by rw [hf]; nofun), if_pos (lookup_isSome_iff.2 hr)]

/-- SEED of a key that is admitted (R109). -/
theorem serveSeed_created {t : State} (hr : ∀ r ∈ s.rte.table, r.key ≠ k)
    (ha : admitKey k (s.lanes[k.lane]).cfg.w s = (t, true)) : serveSeed ops s = (t, ⟨.ok, [1]⟩) := by
  subst hk
  unfold serveSeed
  dsimp only
  rw [if_neg (by rw [hl]; nofun), if_neg (by rw [hf]; nofun), if_neg (by rw [lookup_none.2 hr]; nofun), ha]

/-- SEED of a key whose admission is refused (R94, R109). -/
theorem serveSeed_full {t : State} (hr : ∀ r ∈ s.rte.table, r.key ≠ k)
    (ha : admitKey k (s.lanes[k.lane]).cfg.w s = (t, false)) : serveSeed ops s = (t, .refuse .full) := by
  subst hk
  unfold serveSeed
  dsimp only
  rw [if_neg (by rw [hl]; nofun), if_neg (by rw [hf]; nofun), if_neg (by rw [lookup_none.2 hr]; nofun), ha]

end

/-- Settles O26: admission by `admitKey_room`, `admitKey_evicts` and `admitKey_full`, the record evicted by
`evictionCandidate_coldest`. -/
theorem seedIsServed : Obligations.SeedIsServed := by
  refine ⟨keyFits_iff, ?_⟩
  rintro s ops f k rfl hk h hl
  have ⟨⟨_, _, length, _⟩, _⟩ := h
  have key : keyOf (bytesAt ops 0 4) = k := by rw [hk, bytesAt_all (n := 4) length]
  refine ⟨fun hf => live_commandServed_answer h rfl (serveSeed_unfit key hl hf),
    fun hf => ⟨fun hex => live_commandServed_answer h rfl (serveSeed_existing key hl hf hex),
    fun hr hroom => ?_, fun hr hfull ht hex => ?_, fun hr hfull hp => ?_⟩⟩
  · exact exec_served h rfl (serveSeed_created (s := dequeue _ s) key hl hf hr (admitKey_room hroom)) rfl
  · obtain ⟨c, hc, hcp, hcw, chosen, coldest⟩ := evictionCandidate_coldest ht hex
    refine ⟨c, hc, hcp, hcw, fun r hr hp hw hne => colder_iff.1 (coldest r hr hp hw hne), ?_⟩
    exact exec_served h rfl
      (serveSeed_created (s := dequeue _ s) key hl hf hr (admitKey_evicts (s := dequeue _ s) hfull.ge chosen hcw)) rfl
  · exact exec_served h rfl (serveSeed_full (s := dequeue _ s) key hl hf hr (admitKey_full (s := dequeue _ s) hfull hp)) rfl

/-! ### A PROFILE-LOAD in flight -/

section
variable {ops : List Byte} {s : State} (h : profileLoadInFlight s = true)
include h

theorem serveSeed_busy : serveSeed ops s = (s, .refuse .busy) := by
  rw [serveSeed, if_pos h]

theorem serveAmend_busy : serveAmend ops s = (s, .refuse .busy) := by
  rw [serveAmend, if_pos h]

theorem serveRetire_busy : serveRetire ops s = (s, .refuse .busy) := by
  rw [serveRetire, if_pos h]

theorem serveClearTable_busy : serveClearTable ops s = (s, .refuse .busy) := by
  rw [serveClearTable, if_pos h]

end

/-- Settles O32: each of the four judges the load first. -/
theorem tableChangesAreBusyDuringALoad : Obligations.TableChangesAreBusyDuringALoad := by
  rintro s ops f l rfl hop hscope
  have load : profileLoadInFlight s = true := by
    simp [profileLoadInFlight, hop, hscope]
  exact ⟨fun h => live_commandServed_answer h rfl (serveSeed_busy load),
    fun h => live_commandServed_answer h rfl (serveAmend_busy load),
    fun h => live_commandServed_answer h rfl (serveRetire_busy load),
    fun h => live_commandServed_answer h rfl (serveClearTable_busy load)⟩

/-! ### HOLD -/

theorem serveHold_refused {ops : List Byte} (s : State) (h : 1 < byteAt ops 0) :
    serveHold ops s = (s, .refuse .badOperand) := by
  rw [serveHold, flagOf_none.2 h]

theorem serveHold_accepted {ops : List Byte} {on : Bool} (s : State) (h : byteAt ops 0 = if on then 1 else 0) :
    serveHold ops s = (setHold on s, ⟨.ok, [boolByte on]⟩) := by
  rw [serveHold, h]
  cases on <;> rfl

theorem setHold_same {on : Bool} {s : State} (h : s.rte.hold = on) : setHold on s = s := if_pos h

/-- A change of the hold state (R101, R102, R153). -/
theorem setHold_changed {on : Bool} {s : State} (h : s.rte.hold ≠ on) : setHold on s
    = (s.setDse { s.dse with rows := Vector.ofFn fun i => { s.dse.rows[i] with rebound := false } }).setRte { s.rte with
        hold := on, table := if on then s.rte.table else s.rte.table.map fun r => { r with held := none } } := by
  have rows : mapAll (fun r : Row => { r with rebound := false }) s.dse.rows
      = Vector.ofFn fun i => { s.dse.rows[i] with rebound := false } := by
    refine Vector.ext fun k hk => ?_
    simp [mapAll]
  rw [setHold, if_neg h, rows]
  rfl

/-- Settles O29. -/
theorem holdIsServed : Obligations.HoldIsServed := by
  rintro s ops f rfl h
  refine ⟨fun ho => live_commandServed_answer h rfl (serveHold_refused _ ho), fun on ho => ⟨fun same => ?_, fun change => ?_⟩⟩
  · have served := serveHold_accepted (dequeue ⟨.hold, ops, false⟩ s) ho
    rw [setHold_same (s := dequeue ⟨.hold, ops, false⟩ s) same] at served
    exact live_commandServed_answer h rfl served
  · have served := serveHold_accepted (dequeue ⟨.hold, ops, false⟩ s) ho
    rw [setHold_changed (s := dequeue ⟨.hold, ops, false⟩ s) change] at served
    refine (exec_served h rfl served rfl).trans (congrArg (fun t => Host.Outcome.next (settle t)) ?_)
    simp only [State.setCtl, State.setRte, State.setDse, dequeue, servedAtLink]

/-! ### WATCH-SET and TRAP-SET -/

theorem serveWatchSet_refused {ops : List Byte} (s : State) (h : 7 < byteAt ops 0) :
    serveWatchSet ops s = (s, .refuse .badOperand) := by
  rw [serveWatchSet, slotOf_none.2 h]

section
variable {ops : List Byte} {i : Fin 8} {s : State} (hi : byteAt ops 0 = i.val)
include hi

theorem serveWatchSet_denied (h : s.wta.slots[i] ≠ .free) : serveWatchSet ops s = (s, .refuse .denied) := by
  rw [serveWatchSet, slotOf_val.2 hi]
  exact if_pos h

theorem serveWatchSet_absent (h : s.wta.slots[i] = .free) (hk : lookup (keyOf (bytesAt ops 1 4)) s.rte.table = none) :
    serveWatchSet ops s = (s, .refuse .noRecord) := by
  rw [serveWatchSet, slotOf_val.2 hi]
  dsimp only
  rw [if_neg (not_not.2 h), hk]

theorem serveWatchSet_watched {r : Record} (h : s.wta.slots[i] = .free)
    (hk : lookup (keyOf (bytesAt ops 1 4)) s.rte.table = some r) (hw : r.watch ≠ none) :
    serveWatchSet ops s = (s, .refuse .already) := by
  rw [serveWatchSet, slotOf_val.2 hi]
  dsimp only
  rw [if_neg (not_not.2 h), hk]
  exact if_pos (Option.isSome_iff_ne_none.2 hw)

theorem serveWatchSet_binds {r : Record} (h : s.wta.slots[i] = .free)
    (hk : lookup (keyOf (bytesAt ops 1 4)) s.rte.table = some r) (hw : r.watch = none) : serveWatchSet ops s
      = (modifySlot i (fun _ => .armed (keyOf (bytesAt ops 1 4)))
          (modifyRecord (keyOf (bytesAt ops 1 4)) (fun r => { r with watch := some i }) s),
        ⟨.ok, byteOf i.val :: (keyOf (bytesAt ops 1 4)).bytes⟩) := by
  rw [serveWatchSet, slotOf_val.2 hi]
  dsimp only
  rw [if_neg (not_not.2 h), hk]
  exact if_neg (by rw [hw]; nofun)

end

theorem trapMode_ofCode_none {n : Nat} : TrapMode.ofCode n = none ↔ 2 < n := by
  rcases n with _ | _ | _ | n <;> simp [TrapMode.ofCode]

theorem trapDir_ofCode_none {n : Nat} : TrapDir.ofCode n = none ↔ 2 < n := by
  rcases n with _ | _ | _ | n <;> simp [TrapDir.ofCode]

theorem trapMode_ofCode_iff {n : Nat} {m : TrapMode} : TrapMode.ofCode n = some m ↔ n = trapModeCode m := by
  rcases n with _ | _ | _ | n <;> cases m <;> simp [TrapMode.ofCode, trapModeCode]

theorem trapDir_ofCode_iff {n : Nat} {d : TrapDir} : TrapDir.ofCode n = some d ↔ n = trapDirCode d := by
  rcases n with _ | _ | _ | n <;> cases d <;> simp [TrapDir.ofCode, trapDirCode]

/-- The window that accepted operands write (R130). -/
theorem trapOf_accepted {mode lane target low high dir : Nat} {m : TrapMode} {l : Fin 4} {d : TrapDir}
    (hm : mode = trapModeCode m) (hl : lane = l.val) (hd : dir = trapDirCode d) (ht : target ≤ 1023) (hr : low ≤ high) :
    trapOf mode lane target low high dir = some ⟨m, l, BitVec.ofNat 10 target, low, high, d, 0, none, none⟩ := by
  rw [trapOf, trapMode_ofCode_iff.2 hm, laneOf_val.2 hl, trapDir_ofCode_iff.2 hd]
  exact if_pos ⟨ht, hr⟩

theorem trapOf_refused {mode lane target low high dir : Nat}
    (h : 2 < mode ∨ 3 < lane ∨ 1023 < target ∨ high < low ∨ 2 < dir) : trapOf mode lane target low high dir = none := by
  unfold trapOf
  split
  · next m l d hm hl hd =>
    have mode_le : ¬ 2 < mode := by rw [← trapMode_ofCode_none, hm]; nofun
    have lane_le : ¬ 3 < lane := by rw [← laneOf_isNone, hl]; nofun
    have dir_le : ¬ 2 < dir := by rw [← trapDir_ofCode_none, hd]; nofun
    exact if_neg (by omega)
  · rfl

theorem serveTrapSet_refused {ops : List Byte} (s : State) (h : 3 < byteAt ops 0 ∨ 2 < byteAt ops 1 ∨ 3 < byteAt ops 2
    ∨ 1023 < natAt ops 3 2 ∨ natAt ops 7 2 < natAt ops 5 2 ∨ 2 < byteAt ops 9) :
    serveTrapSet ops s = (s, .refuse .badOperand) := by
  unfold serveTrapSet windowOf
  rcases h with h | h
  · rw [laneOf_isNone.2 h]
  · rw [trapOf_refused h]
    cases laneOf (byteAt ops 0) <;> rfl

theorem serveTrapSet_accepted {ops : List Byte} {i : Fin 4} {t : Trap} (s : State) (hi : byteAt ops 0 = i.val)
    (ht : trapOf (byteAt ops 1) (byteAt ops 2) (natAt ops 3 2) (natAt ops 5 2) (natAt ops 7 2) (byteAt ops 9) = some t) :
    serveTrapSet ops s = (writeTrap i t s, ⟨.ok, t.bytes⟩) := by
  unfold serveTrapSet windowOf
  rw [laneOf_val.2 hi, ht]

/-- Settles O30. -/
theorem watchAndTrapSetsAreServed : Obligations.WatchAndTrapSetsAreServed := by
  rintro s ops f k rfl rfl
  refine ⟨fun h => ⟨fun hn => live_commandServed_answer h rfl (serveWatchSet_refused _ hn), fun i hi =>
    ⟨fun busy => live_commandServed_answer h rfl (serveWatchSet_denied hi busy), fun free =>
      ⟨fun absent => live_commandServed_answer h rfl (serveWatchSet_absent hi free absent), fun r hr =>
        ⟨fun hw => live_commandServed_answer h rfl (serveWatchSet_watched hi free hr hw), fun hw => ?_⟩⟩⟩⟩,
    fun h => ⟨fun hn => live_commandServed_answer h rfl (serveTrapSet_refused _ hn),
      fun i lane m d hi hlane htarget hrange hm hd => ?_⟩⟩
  · exact exec_served h rfl (serveWatchSet_binds (s := dequeue _ s) hi free hr hw) rfl
  · have mode : byteAt ops 1 = trapModeCode m := hm.trans (by cases m <;> rfl)
    have dir : byteAt ops 9 = trapDirCode d := hd.trans (by cases d <;> rfl)
    exact ⟨_, rfl, exec_served h rfl (serveTrapSet_accepted _ hi (trapOf_accepted mode hlane dir htarget hrange)) rfl⟩

/-! ### AMEND -/

theorem natAt_two {ops : List Byte} {i : Nat} (h : i + 2 ≤ ops.length) :
    natAt ops i 2 = byteAt ops i * 256 + byteAt ops (i + 1) := by
  have bytes : bytesAt ops i 2 = [ops[i], ops[i + 1]] := by
    rw [bytesAt, List.drop_eq_getElem_cons (by omega), List.drop_eq_getElem_cons (by omega)]
    rfl
  rw [natAt, bytes]
  simp [beNat, byteAt, show i < ops.length by omega, show i + 1 < ops.length by omega]

theorem natAt_four {ops : List Byte} {i : Nat} (h : i + 4 ≤ ops.length) : natAt ops i 4 = fourAt ops i := by
  have bytes : bytesAt ops i 4 = [ops[i], ops[i + 1], ops[i + 2], ops[i + 3]] := by
    rw [bytesAt, List.drop_eq_getElem_cons (by omega), List.drop_eq_getElem_cons (by omega),
      List.drop_eq_getElem_cons (by omega), List.drop_eq_getElem_cons (by omega)]
    rfl
  rw [natAt, bytes]
  simp [beNat, fourAt, byteAt, show i < ops.length by omega, show i + 1 < ops.length by omega,
    show i + 2 < ops.length by omega, show i + 3 < ops.length by omega]

theorem setOrClear_none {set clear : Bool} : setOrClear set clear = none ↔ set = true ∧ clear = true := by
  cases set <;> cases clear <;> simp [setOrClear]

/-- What a set/clear pair asks, where it is accepted (R110). -/
theorem setOrClear_some {set clear : Bool} {c : Option Bool} (h : setOrClear set clear = some c) :
    c = pairAsks set clear true false := by
  cases set <;> cases clear <;> simp [setOrClear] at h <;> simp [pairAsks, ← h]

theorem pairAsks_map {α β : Type} (f : α → β) (set clear : Bool) (x y : α) :
    (pairAsks set clear x y).map f = pairAsks set clear (f x) (f y) := by
  cases set <;> cases clear <;> rfl

theorem pairAsks_true {set clear : Bool} : pairAsks set clear true false = some true ↔ set = true := by
  cases set <;> cases clear <;> simp [pairAsks]

theorem printable_iff {b : Byte} : printable b = true ↔ ¬ (b.toNat < 0x20 ∨ 0x7E < b.toNat) := by
  simp [printable]

/-- The label of an AMEND passes: 1 to 12 printable characters (R110). -/
theorem label_passes {ops : List Byte} {n : Nat} (h : ops.length = 27) : (1 ≤ n ∧ n ≤ 12
      ∧ ((bytesAt ops 7 12).take n).all printable = true)
    ↔ ¬ (n = 0 ∨ 12 < n ∨ ∃ k, k < n ∧ (byteAt ops (7 + k) < 0x20 ∨ 0x7E < byteAt ops (7 + k))) := by
  have characters (small : n ≤ 12) : ((bytesAt ops 7 12).take n).all printable = true
      ↔ ∀ k, k < n → ¬ (byteAt ops (7 + k) < 0x20 ∨ 0x7E < byteAt ops (7 + k)) := by
    simp only [List.all_eq_true, List.mem_iff_getElem, printable_iff]
    have byte (k : Nat) (hk : k < n) : byteAt ops (7 + k) = (ops[7 + k]'(by omega)).toNat := by
      simp [byteAt, show 7 + k < ops.length by omega]
    have length : ((bytesAt ops 7 12).take n).length = n := by
      simp [bytesAt]
      omega
    constructor
    · intro all k hk
      rw [byte k hk]
      exact all _ ⟨k, by omega, by simp [bytesAt]⟩
    · rintro all x ⟨k, hk, rfl⟩
      have passes := all k (by omega)
      rw [byte k (by omega)] at passes
      simpa [bytesAt] using passes
  constructor
  · rintro ⟨pos, small, printed⟩ (zero | long | ⟨k, hk, bad⟩)
    · omega
    · omega
    · exact (characters small).1 printed k hk bad
  · intro good
    have small : n ≤ 12 := by
      by_contra long
      exact good (.inr (.inl (by omega)))
    refine ⟨?_, small, (characters small).2 fun k hk bad => good (.inr (.inr ⟨k, hk, bad⟩))⟩
    by_contra zero
    exact good (.inl (by omega))

theorem labelChange_none {c : Option Bool} {n : Nat} {bs : List Byte} : labelChange c n bs = none
    ↔ c = some true ∧ ¬ (1 ≤ n ∧ n ≤ 12 ∧ (bs.take n).all printable = true) := by
  unfold labelChange
  split <;> simp

theorem labelChange_some {c : Option Bool} {n : Nat} {bs : List Byte} {label : Option (Option (List Byte))}
    (h : labelChange c n bs = some label) :
    label = c.map (fun b => if b then some (bs.take n) else none) ∧ (c = some true → n ≤ 12) := by
  unfold labelChange at h
  split at h
  · simpa using h.symm
  · simpa using h.symm
  · split at h
    · next passes => exact ⟨by simpa using h.symm, fun _ => passes.2.1⟩
    · cases h

/-- The operands that AMEND refuses (R110, R197). -/
theorem parseAmend_none {ops : List Byte} (h : ops.length = 27) : parseAmend ops = none ↔ AmendRefused ops := by
  have changes := natAt_two (ops := ops) (i := 4) (by omega)
  unfold parseAmend AmendRefused
  simp only [forall_eq]
  rw [changes]
  generalize byteAt ops 4 * 256 + byteAt ops 5 = asked
  split
  · next lab ex pin notify hlab hex hpin hnotify =>
    have apart {set clear : Bool} {c : Option Bool} (hc : setOrClear set clear = some c) : ¬ (set = true ∧ clear = true) := by
      rw [← setOrClear_none, hc]
      nofun
    rw [Option.map_eq_none_iff, labelChange_none, label_passes h, not_not, setOrClear_some hlab, pairAsks_true]
    simp only [apart hlab, apart hex, apart hpin, apart hnotify, false_or]
  · next some_ =>
    refine ⟨fun _ => ?_, fun _ => rfl⟩
    by_contra passes
    have accepted {set clear : Bool} (hp : ¬ (set = true ∧ clear = true)) : ∃ c, setOrClear set clear = some c :=
      Option.ne_none_iff_exists'.1 fun hn => hp (setOrClear_none.1 hn)
    obtain ⟨lab, hlab⟩ := accepted fun hp => passes (.inl hp)
    obtain ⟨ex, hex⟩ := accepted fun hp => passes (.inr (.inl hp))
    obtain ⟨pin, hpin⟩ := accepted fun hp => passes (.inr (.inr (.inl hp)))
    obtain ⟨notify, hnotify⟩ := accepted fun hp => passes (.inr (.inr (.inr (.inl hp))))
    exact some_ lab ex pin notify hlab hex hpin hnotify

/-- The amendment that accepted operands give (R110, R197). -/
theorem parseAmend_given {ops : List Byte} {a : Amendment} (h : ops.length = 27) (ha : parseAmend ops = some a) :
    AmendGiven ops a := by
  have changes := natAt_two (ops := ops) (i := 4) (by omega)
  have word (i : Nat) (hi : i + 4 ≤ 27) : wordAt ops i = BitVec.ofNat 32 (fourAt ops i) := by
    rw [wordAt, natAt_four (by omega)]
  unfold parseAmend at ha
  intro asked hasked
  simp only [changes, ← hasked] at ha
  split at ha
  · next lab ex pin notify hlab hex hpin hnotify =>
    obtain ⟨label, hlabel, rfl⟩ := Option.map_eq_some_iff.1 ha
    obtain ⟨spelled, short⟩ := labelChange_some hlabel
    have expectation : ex.map (fun b => if b then some ⟨wordAt ops 19, wordAt ops 23⟩ else none)
        = pairAsks (asked.testBit 2) (asked.testBit 3)
          (some ⟨BitVec.ofNat 32 (fourAt ops 19), BitVec.ofNat 32 (fourAt ops 23)⟩ : Option Expectation) none := by
      rw [setOrClear_some hex, pairAsks_map, word 19 (by omega), word 23 (by omega)]
      rfl
    have name : label = pairAsks (asked.testBit 0) (asked.testBit 1) (some ((ops.drop 7).take (byteAt ops 6))) none := by
      rw [spelled, setOrClear_some hlab, pairAsks_map]
      cases hset : asked.testBit 0 with
      | false => rfl
      | true =>
        have length := short (by rw [setOrClear_some hlab, pairAsks_true, hset])
        simp [pairAsks, bytesAt, List.take_take, Nat.min_eq_left length]
    rw [expectation, name, setOrClear_some hpin, setOrClear_some hnotify]
  · cases ha

theorem serveAmend_refused {ops : List Byte} {s : State} (hl : profileLoadInFlight s = false) (h : parseAmend ops = none) :
    serveAmend ops s = (s, .refuse .badOperand) := by
  rw [serveAmend, if_neg (by rw [hl]; nofun), h]

theorem serveAmend_absent {ops : List Byte} {a : Amendment} {s : State} (hl : profileLoadInFlight s = false)
    (h : parseAmend ops = some a) (hk : lookup (keyOf (bytesAt ops 0 4)) s.rte.table = none) :
    serveAmend ops s = (s, .refuse .noRecord) := by
  rw [serveAmend, if_neg (by rw [hl]; nofun), h]
  dsimp only
  rw [hk]

/-- The record that an amendment leaves (R111). -/
def Record.amended (a : Amendment) (r : Record) : Record := (r.amendPlain a).amendExpectation a.expectation

theorem amended_key (a : Amendment) (r : Record) : (r.amended a).key = r.key := by
  unfold Record.amended Record.amendExpectation
  split <;> rfl

theorem amendRecord_eq (a : Amendment) (r : Record) (s : State) : amendRecord a r s
    = (s.setRte { s.rte with table := updateRecord r.key (fun _ => r.amended a) s.rte.table }).setWta { s.wta with
        causes := s.wta.causes
          ||| (if (r.amended a).mismatched = true ∧ (r.mismatched && !a.clearMismatched) = false then 0x002 else 0) } := by
  have newly : (if ((r.amended a).mismatched && !(r.amendPlain a).mismatched) = true then Cause.mismatch.bit else 0)
      = if (r.amended a).mismatched = true ∧ (r.mismatched && !a.clearMismatched) = false then 0x002 else 0 :=
    if_congr (by rw [Bool.and_eq_true, Bool.not_eq_true']; rfl) rfl rfl
  unfold amendRecord
  dsimp only
  rw [raiseIf_eq, ← newly]
  rfl

/-- AMEND of a record answers it as amended (R111). -/
theorem serveAmend_present {ops : List Byte} {a : Amendment} {r : Record} {s : State} (hl : profileLoadInFlight s = false)
    (h : parseAmend ops = some a) (hk : lookup (keyOf (bytesAt ops 0 4)) s.rte.table = some r) :
    serveAmend ops s = (amendRecord a r s, ⟨.ok, (r.amended a).bytes s.rte.epoch⟩) := by
  have key := lookup_key hk
  have found : lookup (keyOf (bytesAt ops 0 4)) (amendRecord a r s).rte.table = some (r.amended a) := by
    rw [amendRecord_eq, key]
    exact lookup_updateRecord (f := fun _ => r.amended a) hk ((amended_key a r).trans key)
  have epoch : (amendRecord a r s).rte.epoch = s.rte.epoch := by
    rw [amendRecord_eq]
    rfl
  rw [serveAmend, if_neg (by rw [hl]; nofun), h]
  dsimp only
  rw [hk]
  dsimp only
  rw [found, epoch]
  rfl

/-- An amended record, spelled out (R111). -/
theorem amended_eq (a : Amendment) (r : Record) : r.amended a = { r with
    diverged := r.diverged && !a.clearDiverged
    changes := if a.clearChanges then 0 else r.changes
    label := a.label.getD r.label
    pinned := a.pinned.getD r.pinned
    notify := a.notify.getD r.notify
    expectation := (match a.expectation with
      | none => r.expectation
      | some none => none
      | some (some x) => some ⟨x.expected &&& widthMask r.width, x.mask &&& widthMask r.width⟩)
    mismatched := (match a.expectation with
      | none => r.mismatched && !a.clearMismatched
      | some none => false
      | some (some x) => (r.mismatched && !a.clearMismatched) || r.value.elim false fun v =>
        ((v ^^^ (x.expected &&& widthMask r.width)) &&& (x.mask &&& widthMask r.width)) != 0) } := by
  unfold Record.amended Record.amendExpectation
  rcases a.expectation with _ | _ | x <;> rfl

/-- Settles O27. -/
theorem amendIsServed : Obligations.AmendIsServed := by
  refine ⟨fun ops h => ⟨parseAmend_none h, fun a => parseAmend_given h⟩, ?_⟩
  rintro s ops f k rfl rfl h hl
  refine ⟨fun hn => live_commandServed_answer h rfl (serveAmend_refused hl hn),
    fun a ha => ⟨fun hk => live_commandServed_answer h rfl (serveAmend_absent hl ha hk), fun r r' hk hr' => ?_⟩⟩
  obtain rfl : r.amended a = r' := (amended_eq a r).trans hr'.symm
  have served := serveAmend_present (s := dequeue ⟨.amend, ops, false⟩ s) hl ha hk
  rw [amendRecord_eq, lookup_key hk] at served
  refine (exec_served h rfl served rfl).trans (congrArg (fun t => Host.Outcome.next (settle t)) ?_)
  simp only [State.setCtl, State.setRte, State.setWta, dequeue, servedAtLink]
  rfl

end Sys2Proof.Machine
end

section
/-! PROOF. Decayed heat, the absorption of a posting, and a lane's requests with the commands that wait for them (R87, R88, R91
to R100, R129). -/

namespace Sys2Proof.Machine

/-! ### Heat -/

/-- One step of the decay: seven eighths, rounded down (R87). -/
def sevenEighths (h : Nat) : Nat := 7 * h / 8

theorem decaySteps_eq (n h : Nat) : decaySteps n h = sevenEighths^[n] h := by
  induction n generalizing h with
  | zero => rfl
  | succ n ih => exact ih _

theorem sevenEighths_mono : Monotone sevenEighths := fun a b h => by
  unfold sevenEighths
  omega

theorem iterate_sevenEighths_le (n h : Nat) : sevenEighths^[n] h ≤ h := by
  induction n generalizing h with
  | zero => exact le_rfl
  | succ n ih => exact (ih _).trans (by unfold sevenEighths; omega)

/-- No heat is left of 65535 after 84 steps (R88). -/
theorem iterate_sevenEighths_cap {h : Nat} (hh : h ≤ 65535) : sevenEighths^[84] h = 0 := by
  have top : sevenEighths^[84] 65535 = 0 := by decide +kernel
  exact Nat.le_zero.1 (top ▸ sevenEighths_mono.iterate 84 hh)

/-- Settles O33. -/
theorem decayedHeatIsSevenEighths : Obligations.DecayedHeatIsSevenEighths := by
  intro r e
  have steps : decayedHeat r e = sevenEighths^[min (e - r.stamp) 84] r.heat := decaySteps_eq _ _
  refine ⟨steps, fun hh => ?_, steps ▸ iterate_sevenEighths_le _ _⟩
  rw [steps]
  show _ = sevenEighths^[e - r.stamp] r.heat
  by_cases capped : e - r.stamp ≤ 84
  · rw [Nat.min_eq_left capped]
  · obtain ⟨n, hn⟩ := Nat.exists_eq_add_of_lt (Nat.not_le.1 capped)
    have zero : sevenEighths^[n + 1 + 84] r.heat = 0 := by
      rw [Function.iterate_add_apply, iterate_sevenEighths_cap hh]
      exact Nat.le_zero.1 (iterate_sevenEighths_le _ _)
    rw [Nat.min_eq_right (by omega), iterate_sevenEighths_cap hh, hn, ← zero]
    congr 1
    omega

/-! ### Absorption -/

section
variable {p : Posting} {r : Record} {change newDiverge newMismatch : Bool} (hc : change = decide (r.value ≠ some p.value))
  (hd : newDiverge = (decide (p.dir = .read) && r.written.isSome && decide (r.written ≠ some p.value) && !r.diverged))
  (hm : newMismatch = (!r.mismatched && r.expectation.elim false fun x => ((p.value ^^^ x.expected) &&& x.mask) != 0))

include hd in
theorem diverged_after : (r.diverged || r.divergesAt p) = (r.diverged || newDiverge) := by
  rw [hd, Record.divergesAt]
  cases r.written <;> cases r.diverged <;> simp

include hm in
theorem mismatched_after : (r.mismatched || r.expectation.elim false fun x => x.disagrees p.value)
    = (r.mismatched || newMismatch) := by
  rw [hm]
  cases r.mismatched <;> rfl

include hc hd hm in
/-- A record that has absorbed a posting, spelled out (R95 to R98). -/
theorem absorb_eq (hold : Bool) (epoch : Nat) : r.absorb p hold epoch = { r with
    written := if p.dir = .write then some p.value else r.written
    seen := if change then some ⟨p.value, p.dir⟩ else r.seen
    diverged := r.diverged || newDiverge
    unverified := false
    heat := min 65535 (decayedHeat r epoch + (match p.dir with
      | .write => 4096
      | .read => 2048))
    stamp := epoch
    lastAccess := epoch
    mismatched := r.mismatched || newMismatch
    changes := if change then min 65535 (r.changes + 1) else r.changes
    lastChange := if change then some epoch else r.lastChange
    held := if change && hold && r.held.isNone then some (match r.value with
        | some v => .value v
        | none => .none)
      else r.held } := by
  have changed : r.changedBy p = change := hc.symm
  have heat : heatOf p.dir = match p.dir with
      | .write => 4096
      | .read => 2048 := by cases p.dir <;> rfl
  have held : Record.heldAfter hold r = if hold && r.held.isNone then some (match r.value with
        | some v => .value v
        | none => .none)
      else r.held := by
    unfold Record.heldAfter
    cases hold <;> rcases r.held with _ | _ <;> rfl
  unfold Record.absorb
  rw [changed]
  unfold Record.refresh Record.observe Record.countChange
  dsimp only
  rw [diverged_after hd, mismatched_after hm, changed, heat, held]
  cases change <;> rfl

end

/-- The slots after a change has been reported to the one that watches the record (R121). -/
def toldChange (p : Posting) (r : Record) (slots : Vector Slot 8) : Vector Slot 8 :=
  match r.watch with
  | some j => slots.set j ((slots[j]).report p.value)
  | none => slots

theorem reportChange_eq (p : Posting) (r : Record) (s : State) : reportChange p r s
    = s.setWta { s.wta with slots := if r.changedBy p then toldChange p r s.wta.slots else s.wta.slots } := by
  unfold reportChange toldChange
  cases r.changedBy p with
  | false => rfl
  | true => cases r.watch <;> rfl

theorem rose_or (b c : Bool) : ((b || c) && !b) = (c && !b) := by
  cases b <;> cases c <;> rfl

/-- A posting absorbed for a record: the record, its causes and the report (R95 to R98). -/
theorem absorbInto_eq {p : Posting} {r : Record} {change newDiverge newMismatch : Bool} (s : State)
    (hc : change = decide (r.value ≠ some p.value))
    (hd : newDiverge = (decide (p.dir = .read) && r.written.isSome && decide (r.written ≠ some p.value) && !r.diverged))
    (hm : newMismatch = (!r.mismatched && r.expectation.elim false fun x => ((p.value ^^^ x.expected) &&& x.mask) != 0)) :
    absorbInto r p s = (s.setRte { s.rte with
        table := updateRecord p.key (fun _ => r.absorb p s.rte.hold s.rte.epoch) s.rte.table }).setWta { s.wta with
        causes := s.wta.causes ||| (if newDiverge && r.notify then 0x004 else 0) ||| (if newMismatch then 0x002 else 0)
        slots := if change then toldChange p r s.wta.slots else s.wta.slots } := by
  have fields := absorb_eq hc hd hm s.rte.hold s.rte.epoch
  have diverges : ((r.absorb p s.rte.hold s.rte.epoch).diverged && !r.diverged) = newDiverge := by
    rw [fields]
    exact (rose_or _ _).trans (by rw [hd]; cases r.diverged <;> simp)
  have mismatches : ((r.absorb p s.rte.hold s.rte.epoch).mismatched && !r.mismatched) = newMismatch := by
    rw [fields]
    exact (rose_or _ _).trans (by rw [hm]; cases r.mismatched <;> simp)
  have changed : r.changedBy p = change := hc.symm
  unfold absorbInto
  dsimp only
  rw [diverges, mismatches, reportChange_eq, changed, raiseIf_eq, raiseIf_eq]
  rfl

/-- Settles O34: the record by `absorb_eq`, the causes and the report by `absorbInto_eq`. -/
theorem absorptionUpdatesTheRecord : Obligations.AbsorptionUpdatesTheRecord := by
  intro s i p r r' change newDiverge newMismatch h hx hr hc hd hm hr'
  have ⟨running, _⟩ := h
  have record : r.absorb p (pastWindows i p s).rte.hold (pastWindows i p s).rte.epoch = r' := (absorb_eq hc hd hm _ _).trans hr'.symm
  have kept : absorbKept p (pastWindows i p s) = absorbInto r p (pastWindows i p s) := by
    unfold absorbKept
    rw [show lookup p.key (pastWindows i p s).rte.table = some r from hr]
  refine (live_next running).trans (congrArg (fun t => Host.Outcome.next (settle t)) ?_)
  rw [absorption_kept h hx, kept, absorbInto_eq _ hc hd hm, record, finishUnit_eq]
  unfold toldChange
  cases r.watch <;> cases change <;> rfl

/-- A record that admission creates, once it has absorbed its posting (R92, R95 to R98). -/
theorem absorb_new (p : Posting) (hold : Bool) (epoch : Nat) : (newRecord p.key p.width epoch).absorb p hold epoch =
    { key := p.key, width := p.width, seen := some ⟨p.value, p.dir⟩
      written := if p.dir = .write then some p.value else none
      held := if hold then some .none else none, expectation := none, label := none, pinned := false
      notify := false, diverged := false, mismatched := false, unverified := false
      heat := (match p.dir with
        | .write => 4096
        | .read => 2048)
      stamp := epoch, lastAccess := epoch, lastChange := some epoch, changes := 1, watch := none } := by
  rw [absorb_eq (change := true) (newDiverge := false) (newMismatch := false) rfl (by simp [newRecord]) rfl]
  have cold : decayedHeat (newRecord p.key p.width epoch) epoch = 0 := by simp [decayedHeat, newRecord, decaySteps]
  rw [cold]
  cases p.dir <;> cases hold <;> rfl

/-- A posting absorbed for the record just created for it (R92). -/
theorem absorbInto_created {p : Posting} {t : List Record} (s : State) (ht : ∀ r ∈ t, r.key ≠ p.key) :
    absorbInto (newRecord p.key p.width s.rte.epoch) p
        (s.setRte { s.rte with table := insertRecord (newRecord p.key p.width s.rte.epoch) t })
      = s.setRte { s.rte with
        table := insertRecord ((newRecord p.key p.width s.rte.epoch).absorb p s.rte.hold s.rte.epoch) t } := by
  rw [absorbInto_eq (change := true) (newDiverge := false) (newMismatch := false) _ rfl (by simp [newRecord]) rfl]
  have key := (absorb_fields p s.rte.hold s.rte.epoch (newRecord p.key p.width s.rte.epoch)).1
  have table := updateRecord_insertRecord (r := newRecord p.key p.width s.rte.epoch)
    (f := fun _ => (newRecord p.key p.width s.rte.epoch).absorb p s.rte.hold s.rte.epoch) key ht
  have causes : s.wta.causes ||| (if false && (newRecord p.key p.width s.rte.epoch).notify then (0x004 : BitVec 9) else 0)
      ||| (if false then 0x002 else 0) = s.wta.causes := by simp
  simp only [State.setRte_rte, State.setRte_wta, causes]
  rw [show updateRecord p.key _ _ = _ from table]
  rfl

theorem absorbKept_absent {p : Posting} {s : State} (hr : ∀ r ∈ s.rte.table, r.key ≠ p.key) : absorbKept p s
    = if (admitKey p.key p.width s).2 then
        absorbInto (newRecord p.key p.width (admitKey p.key p.width s).1.rte.epoch) p (admitKey p.key p.width s).1
      else (admitKey p.key p.width s).1 := by
  unfold absorbKept
  rw [lookup_none.2 hr]
  rcases admitKey p.key p.width s with ⟨t, _ | _⟩ <;> rfl

/-- Settles O36: admission by `admitKey_room` and `admitKey_evicts`, the new record by `absorb_new`. -/
theorem absorptionAdmitsARecord : Obligations.AbsorptionAdmitsARecord := by
  intro s i p new h ht hx hr hnew
  have ⟨running, _⟩ := h
  have record : (newRecord p.key p.width (pastWindows i p s).rte.epoch).absorb p (pastWindows i p s).rte.hold
      (pastWindows i p s).rte.epoch = new := (absorb_new p s.rte.hold s.rte.epoch).trans hnew.symm
  have windows := absorption_kept h hx
  refine ⟨fun hroom => ?_, fun hfull hex => ?_⟩
  · have admitted := admitKey_room (k := p.key) (w := p.width) (s := pastWindows i p s) hroom
    have absorbed := absorbInto_created (pastWindows i p s) (t := s.rte.table) hr
    rw [absorbKept_absent (s := pastWindows i p s) hr, admitted, if_pos rfl] at windows
    refine (live_next running).trans (congrArg (fun t => Host.Outcome.next (settle t)) ?_)
    rw [windows]
    refine (congrArg (finishUnit (.lane i)) absorbed).trans ?_
    rw [record, finishUnit_eq]
    rfl
  · obtain ⟨c, hcm, hcp, hcw, chosen, coldest⟩ := evictionCandidate_coldest ht hex
    refine ⟨c, hcm, hcp, hcw, fun r hr hp hw hne => colder_iff.1 (coldest r hr hp hw hne), ?_⟩
    have admitted := admitKey_evicts (k := p.key) (w := p.width) (s := pastWindows i p s) hfull.ge chosen hcw
    have absorbed := absorbInto_created (pastWindows i p s) (t := s.rte.table.filter fun x => x.key ≠ c.key)
      fun r hm => hr r (List.mem_filter.1 hm).1
    rw [absorbKept_absent (s := pastWindows i p s) hr, admitted, if_pos rfl] at windows
    refine (live_next running).trans (congrArg (fun t => Host.Outcome.next (settle t)) ?_)
    rw [windows]
    refine (congrArg (finishUnit (.lane i)) absorbed).trans ?_
    rw [record, finishUnit_eq]
    rfl

/-- A posting matches a window, spelled out (R128). -/
theorem hit_iff {p : Posting} {t : Trap} : t.hit p = true ↔ (t.mode = .notify ∨ t.mode = .exclude)
    ∧ t.lane = p.key.lane ∧ t.target = p.key.target ∧ t.low ≤ p.key.register.toNat ∧ p.key.register.toNat ≤ t.high
    ∧ (t.dir = .both ∨ (t.dir = .write ∧ p.dir = .write) ∨ (t.dir = .read ∧ p.dir = .read)) := by
  have mode : t.mode ≠ .off ↔ t.mode = .notify ∨ t.mode = .exclude := by cases t.mode <;> simp
  have dir : t.dir.takes p.dir = true
      ↔ t.dir = .both ∨ (t.dir = .write ∧ p.dir = .write) ∨ (t.dir = .read ∧ p.dir = .read) := by
    cases t.dir <;> simp [TrapDir.takes]
  simp only [Trap.hit, Bool.and_eq_true, decide_eq_true_eq, dir, mode, and_assoc]

/-- Settles O37. -/
theorem absorptionDropsThePosting : Obligations.AbsorptionDropsThePosting := by
  intro s i p h
  have ⟨running, _⟩ := h
  refine ⟨fun hx => ?_, fun hx hr hfull hp => ?_, fun j => hit_iff⟩
  · refine (live_next running).trans (congrArg (fun t => Host.Outcome.next (settle t)) ?_)
    rw [absorption_excluded h hx, finishUnit_eq]
    rfl
  · have refused := admitKey_full (k := p.key) (w := p.width) (s := pastWindows i p s) hfull hp
    refine (live_next running).trans (congrArg (fun t => Host.Outcome.next (settle t)) ?_)
    rw [absorption_kept h hx, absorbKept_absent (s := pastWindows i p s) hr, refused, if_neg nofun, finishUnit_eq]
    rfl

end Sys2Proof.Machine
end

section
/-! PROOF. The requests of a lane, and the commands that wait for them, answered together (R19, R21, R31, R100, R177). -/

namespace Sys2Proof.Machine

/-! ### Answers given one after another -/

/-- The Control Link after one waiting command has been answered: a cut one is dropped (R176, R177). -/
def answerOne (a : Answer) (c : Ctl) (w : Waiting) : Ctl :=
  { c with
    waiting := c.waiting.erase w
    phase := if w.cut then c.phase else .answer
    txn := if w.cut then c.txn else { c.txn with answer := a.bytes, sent := 0, restarts := false, sleeps := false } }

theorem foldl_erase_cons {α : Type} [BEq α] [LawfulBEq α] {x : α} {ys : List α} (h : ∀ y ∈ ys, y ≠ x) (l : List α) :
    ys.foldl List.erase (x :: l) = x :: ys.foldl List.erase l := by
  induction ys generalizing l with
  | nil => rfl
  | cons y ys ih =>
    have head : (x :: l).erase y = x :: l.erase y := List.erase_cons_tail (by simpa using (h y List.mem_cons_self).symm)
    rw [List.foldl_cons, List.foldl_cons, head, ih fun z hz => h z (List.mem_cons_of_mem y hz)]

/-- A list without each of its elements that meet `p`. -/
theorem foldl_erase_filter {α : Type} [BEq α] [LawfulBEq α] (p : α → Bool) (l : List α) :
    (l.filter p).foldl List.erase l = l.filter fun x => !p x := by
  induction l with
  | nil => rfl
  | cons x l ih =>
    cases hx : p x with
    | true => simp [hx, ih]
    | false =>
      rw [List.filter_cons_of_neg (by simp [hx]), List.filter_cons_of_pos (by simp [hx]),
        foldl_erase_cons (fun y hy => ?_), ih]
      rintro rfl
      exact absurd (hx.symm.trans (List.mem_filter.1 hy).2) nofun

theorem foldl_answerOne (a : Answer) (ws : List Waiting) (c : Ctl) : ws.foldl (answerOne a) c = { c with
    waiting := ws.foldl List.erase c.waiting
    phase := if ws.any (fun w => !w.cut) then .answer else c.phase
    txn := if ws.any (fun w => !w.cut) then { c.txn with answer := a.bytes, sent := 0, restarts := false, sleeps := false }
      else c.txn } := by
  induction ws generalizing c with
  | nil => rfl
  | cons w ws ih =>
    rw [List.foldl_cons, ih, List.any_cons]
    unfold answerOne
    cases w.cut <;> cases ws.any (fun w => !w.cut) <;> rfl

/-- The waiting commands that `mine` picks, answered one after another, are answered together. -/
theorem foldl_answerOne_filter (a : Answer) (mine : Waiting → Bool) (c : Ctl) :
    (c.waiting.filter mine).foldl (answerOne a) c = answeredCtl mine a c := by
  rw [foldl_answerOne, foldl_erase_filter, List.any_filter]
  rfl

/-- Waiting commands whose service leaves only their answer, served one after another. -/
theorem foldl_serveWaiting {a : Answer} {s : State} {ws : List Waiting}
    (h : ∀ w ∈ ws, ∀ c : Ctl, serveWaiting w (s.setCtl c) = s.setCtl (answerOne a c w)) (c : Ctl) :
    ws.foldl (fun s w => serveWaiting w s) (s.setCtl c) = s.setCtl (ws.foldl (answerOne a) c) := by
  induction ws generalizing c with
  | nil => rfl
  | cons w ws ih =>
    rw [List.foldl_cons, h w List.mem_cons_self, List.foldl_cons]
    exact ih (fun v hv => h v (List.mem_cons_of_mem w hv)) _

/-- A waiting command that has no effect but its answer, and no note to drop, is answered, or dropped when cut. -/
theorem serveWaiting_plain {a : Answer} {s : State} {w : Waiting} {c : Ctl}
    (hs : ∀ d : Ctl, ∃ b, serve w.cmd w.operands (s.setCtl d) = (s.setCtl d, b) ∧ (w.cut = false → b = a))
    (hf : ∀ t, afterCut w.cmd w.operands t = t) (hr : w.cmd ≠ .restart) (hp : w.cmd ≠ .sleep) :
    serveWaiting w (s.setCtl c) = s.setCtl (answerOne a c w) := by
  obtain ⟨b, served, same⟩ := hs { c with waiting := c.waiting.erase w }
  have out : serveWaiting w (s.setCtl c) = respond w.cmd w.operands w.cut b (s.setCtl { c with waiting := c.waiting.erase w }) := by
    unfold serveWaiting
    rw [show dequeue w (s.setCtl c) = s.setCtl { c with waiting := c.waiting.erase w } from rfl, served]
  rw [out]
  unfold respond answerOne
  cases hcut : w.cut with
  | true => simp [hf]
  | false => simp [sendAnswer, same hcut, hr, hp]

/-! ### The lane's waiting commands -/

theorem awaitsLane_iff {i : Fin 4} {w : Waiting} : w.awaitsLane i = true
    ↔ (w.cmd = .laneSet ∨ w.cmd = .laneEnable) ∧ laneOf (byteAt w.operands 0) = some i := by
  simp [Waiting.awaitsLane]

theorem awaitsLane_spelled (i : Fin 4) : Waiting.awaitsLane i
    = fun w => (w.cmd = .laneSet || w.cmd = .laneEnable) && byteAt w.operands 0 = i.val := by
  funext w
  rw [Bool.eq_iff_iff, awaitsLane_iff, laneOf_val]
  simp

/-- The answer to a command that waits for the request of lane `i` (R19, R21). -/
def waitingLaneAnswer (i : Fin 4) (c : Cmd) (s : State) : Answer :=
  if c = .laneSet then laneSetAnswer i s else laneEnableAnswer i s

theorem serve_awaitsLane {i : Fin 4} {w : Waiting} (h : w.awaitsLane i = true) (s : State) :
    serve w.cmd w.operands s = (s, waitingLaneAnswer i w.cmd s) := by
  obtain ⟨c, lane⟩ := awaitsLane_iff.1 h
  rcases c with c | c
  · rw [c]
    show laneAnswer laneSetAnswer w.operands s = _
    rw [laneAnswer, lane]
    rfl
  · rw [c]
    show laneAnswer laneEnableAnswer w.operands s = _
    rw [laneAnswer, lane]
    rfl

/-- The request of a lane served: every command that waits for it is answered (R31, R177). -/
theorem answerLane_eq {i : Fin 4} {c : Cmd} {s : State} (hc : ∀ w ∈ s.ctl.waiting, w.awaitsLane i = true → w.cut = false → w.cmd = c) :
    answerLane i s = s.setCtl (answeredCtl (Waiting.awaitsLane i) (waitingLaneAnswer i c s) s.ctl) := by
  have each : ∀ w ∈ s.ctl.waiting.filter (Waiting.awaitsLane i), ∀ d : Ctl,
      serveWaiting w (s.setCtl d) = s.setCtl (answerOne (waitingLaneAnswer i c s) d w) := by
    intro w hw d
    obtain ⟨waits, mine⟩ := List.mem_filter.1 hw
    obtain ⟨cmd, _⟩ := awaitsLane_iff.1 mine
    refine serveWaiting_plain (fun d => ⟨_, serve_awaitsLane mine _, fun hcut => ?_⟩) (fun t => ?_) ?_ ?_
    · rw [hc w waits mine hcut]
      rfl
    · rcases cmd with h | h <;> rw [h] <;> rfl
    · rcases cmd with h | h <;> rw [h] <;> nofun
    · rcases cmd with h | h <;> rw [h] <;> nofun
  have walk := foldl_serveWaiting each s.ctl
  rw [foldl_answerOne_filter] at walk
  exact walk

/-- A lane request served as its unit: the effect `f` on the records, the request gone, and the answers (R89, R100). -/
theorem serveRequest_unit {kind : LaneRequest} {i : Fin 4} {f : State → State} {c : Cmd} {s : State}
    (hs : s.rte.serving = some (.lane i)) (hk : (s.lanes[i]).request = some kind) (hl : (f s).lanes = s.lanes)
    (hctl : (f s).ctl = s.ctl)
    (hc : ∀ w ∈ s.ctl.waiting, w.awaitsLane i = true → w.cut = false → w.cmd = c) : serveRequest kind i f s
      = finishUnit (.lane i) (((f s).setLane i { s.lanes[i] with request := none }).setCtl
        (answeredCtl (Waiting.awaitsLane i) (waitingLaneAnswer i c s) s.ctl)) := by
  have answer : waitingLaneAnswer i c (clearRequest i (f s)) = waitingLaneAnswer i c s := by
    unfold waitingLaneAnswer laneSetAnswer laneEnableAnswer clearRequest
    simp [hl]
  have cleared : clearRequest i (f s) = (f s).setLane i { s.lanes[i] with request := none } := by
    rw [clearRequest, hl]
  have ctl : (clearRequest i (f s)).ctl = s.ctl := hctl
  rw [serveRequest, if_pos hk, unitAt_serving hs, answerLane_eq (c := c) (by rw [ctl]; exact hc), answer, ctl, cleared]

/-- Settles O38: the unit by `serveRequest_unit`, the slots of a retirement by `slotsAfterRetirement_filter`. -/
theorem laneRequestsAreServed : Obligations.LaneRequestsAreServed := by
  rintro s i marked kept lanes mine answered running serving rfl rfl rfl rfl hanswered
  have cmd : ∃ c : Cmd, (∀ w ∈ s.ctl.waiting, w.awaitsLane i = true → w.cut = false → w.cmd = c)
      ∧ answered = answeredCtl (Waiting.awaitsLane i) (waitingLaneAnswer i c s) s.ctl := by
    rw [awaitsLane_spelled]
    rcases hanswered with ⟨hc, ha⟩ | ⟨hc, ha⟩
    · exact ⟨.laneSet, hc, ha⟩
    · exact ⟨.laneEnable, hc, ha⟩
  obtain ⟨c, hc, rfl⟩ := cmd
  refine ⟨fun hreq => ?_, fun hreq ht => ?_⟩
  · refine (live_next running).trans (congrArg (fun t => Host.Outcome.next (settle t)) ?_)
    rw [serveRequest_unit (c := c) serving hreq rfl rfl hc, finishUnit_eq]
    rfl
  · have retired := retireAll_filter ht fun r => decide (r.key.lane = i)
    have records : (s.rte.table.filter fun r => !decide (r.key.lane = i)) = s.rte.table.filter fun r => r.key.lane ≠ i :=
      List.filter_congr fun r _ => (decide_not).symm
    refine ⟨(s.rte.table.filter fun r => decide (r.key.lane = i)).foldl tellRetired s.wta.slots, ?_, fun hb => ?_⟩
    · refine (live_next running).trans (congrArg (fun t => Host.Outcome.next (settle t)) ?_)
      rw [serveRequest_unit (c := c) (f := retireLane i) serving hreq (by rw [retireLane, retired]; rfl)
        (by rw [retireLane, retired]; rfl) hc, finishUnit_eq, retireLane, retired, records]
      rfl
    · have slots := slotsAfterRetirement_filter ht hb fun r => decide (r.key.lane = i)
      rw [records] at slots
      exact slots

end Sys2Proof.Machine
end

section
/-! PROOF. Commands served in their turn, their transaction open or cut (R11, R12, R30, R170, R177, R178). -/

namespace Sys2Proof.Machine

/-! ### The command at the front of its owner's queue -/

/-- The part without the command that waits between `pre` and `post`. -/
def unqueued (pre post : List Waiting) (s : State) : State := s.setCtl { s.ctl with waiting := pre ++ post }

section
variable {c : Cmd} {ops : List Byte} {cut : Bool} {pre post : List Waiting} {s : State}
  (hw : s.ctl.waiting = pre ++ ⟨c, ops, cut⟩ :: post) (hpre : ∀ w ∈ pre, ownerOf w.cmd w.operands ≠ ownerOf c ops)
include hw hpre

theorem firstWaiting_front : firstWaiting (ownerOf c ops) s = some ⟨c, ops, cut⟩ := by
  rw [firstWaiting, hw, List.find?_append, find?_none_of_owner hpre]
  simp

theorem dequeue_front : dequeue ⟨c, ops, cut⟩ s = unqueued pre post s := by
  have apart : (⟨c, ops, cut⟩ : Waiting) ∉ pre := fun hm => hpre _ hm rfl
  rw [dequeue, hw, List.erase_append_right _ apart, List.erase_cons_head]
  rfl

theorem serveWaiting_front : serveWaiting ⟨c, ops, cut⟩ s = respond c ops cut (serve c ops (unqueued pre post s)).2
    (serve c ops (unqueued pre post s)).1 := by
  rw [serveWaiting, dequeue_front hw hpre]

variable (hl : ops.length = c.operandLength) (hp : s.pwu.power ≠ .sleep)
include hl

theorem nextServed_front : nextServed c (Frame.ofOperands ops) s = some ⟨c, ops, cut⟩ := by
  have := operandLength_le c
  have length := ofOperands_len (ops := ops) (by omega)
  simp [nextServed, firstWaiting_front hw hpre, length, hl]

include hp

/-- A command at the front of the queue of the RTE, served at LINK (R89, R176, R177). -/
theorem commandServed_atLink (hs : s.rte.serving = some .link) (hc : ownerOf c ops = .rte) :
    commandServed c (Frame.ofOperands ops) s = finishUnit .link (respond c ops cut (serve c ops (unqueued pre post s)).2
      (serve c ops (unqueued pre post s)).1) := by
  simp only [commandServed, nextServed_front hw hpre hl, if_neg hp, atLink_owner hc, if_true, unitAt, hs, serveNext,
    serveWaiting_front hw hpre, advanceAll, hc, advance_rte]

/-- A command at the front of another owner's queue (R176, R177). -/
theorem commandServed_owned (hc : atLink c = false)
    (hn : ∀ t : State, t = respond c ops cut (serve c ops (unqueued pre post s)).2 (serve c ops (unqueued pre post s)).1 →
      advanceAll (ownerOf c ops) t = t) :
    commandServed c (Frame.ofOperands ops) s = respond c ops cut (serve c ops (unqueued pre post s)).2
      (serve c ops (unqueued pre post s)).1 := by
  simp only [commandServed, nextServed_front hw hpre hl, if_neg hp, hc, Bool.false_eq_true, if_false, serveNext,
    serveWaiting_front hw hpre]
  exact hn _ rfl

end

/-- A command whose transaction is cut: what its OK answer leaves, or nothing (R177). -/
theorem respond_cut (c : Cmd) (ops : List Byte) (a : Answer) (s : State) :
    respond c ops true a s = if a.status = .ok then afterCut c ops s else s := rfl

theorem respond_open (c : Cmd) (ops : List Byte) (a : Answer) (s : State) :
    respond c ops false a s = sendAnswer (some c) a s := rfl

/-- A served command leaves the Control Link to its answer. -/
theorem serve_ctl (c : Cmd) (ops : List Byte) {s : State} (hr : s.inReset = false) : (serve c ops s).1.ctl = s.ctl :=
  (effect_serve c ops hr).ctl

/-! ### Served at LINK, open and cut -/

section
variable {c : Cmd} {ops : List Byte} {pre post : List Waiting} {s shut : State} (hl : ops.length = c.operandLength)
  (hr : s.inReset = false) (hp : s.pwu.power ≠ .sleep) (hs : s.rte.serving = some .link) (hc : ownerOf c ops = .rte)
  (hw : s.ctl.waiting = pre ++ ⟨c, ops, false⟩ :: post) (hpre : ∀ w ∈ pre, ownerOf w.cmd w.operands ≠ ownerOf c ops)
  (hshut : shut = { s with ctl := { s.ctl with waiting := pre ++ ⟨c, ops, true⟩ :: post } })
include hl hr hp hs hc hw hpre hshut

/-- The unit of a cut command leaves what the unit of the open one leaves, but for the answer, and for what its OK answer
leaves (R177, R178). -/
theorem served_open_cut : ∃ t : State,
    live (commandAt .served c (Frame.ofOperands ops)) s = .next t
      ∧ live (commandAt .served c (Frame.ofOperands ops)) shut = .next (settle (finishUnit .link
        (respond c ops true (serve c ops (unqueued pre post s)).2 (serve c ops (unqueued pre post s)).1)))
      ∧ (settle (finishUnit .link (serve c ops (unqueued pre post s)).1))
        = t.setCtl { s.ctl with waiting := pre ++ post } := by
  have ctl : (serve c ops (unqueued pre post s)).1.ctl = { s.ctl with waiting := pre ++ post } :=
    serve_ctl c ops (s := unqueued pre post s) hr
  have shutWaits : shut.ctl.waiting = pre ++ ⟨c, ops, true⟩ :: post := by rw [hshut]
  have shutRuns : shut.inReset = false := by rw [hshut]; exact hr
  have sameQueue : unqueued pre post shut = unqueued pre post s := by rw [hshut]; rfl
  have openUnit := commandServed_atLink hw hpre hl hp hs hc
  have cutUnit := commandServed_atLink shutWaits hpre hl (by rw [hshut]; exact hp) (by rw [hshut]; exact hs) hc
  rw [sameQueue] at cutUnit
  refine ⟨_, live_next hr, (live_next shutRuns).trans (by rw [commandAt, cutUnit]), ?_⟩
  rw [commandAt, openUnit, respond_open]
  have sent : finishUnit .link (sendAnswer (some c) (serve c ops (unqueued pre post s)).2 (serve c ops (unqueued pre post s)).1)
      = (finishUnit .link (serve c ops (unqueued pre post s)).1).setCtl
        (sendAnswer (some c) (serve c ops (unqueued pre post s)).2 (serve c ops (unqueued pre post s)).1).ctl := rfl
  rw [sent, settle_setCtl (by rfl), State.setCtl_setCtl, ← ctl]
  rfl

end

/-! ### The queue behind a served command -/

/-- Every command of a lane waits for its turn (R30, R31, R176). -/
theorem advance_lane (i : Fin 4) (n : Nat) (s : State) : advance (.lane (some i)) n s = s := by
  cases n with
  | zero => rfl
  | succ n =>
    simp only [advance]
    split
    · rfl
    · next w hw =>
      have owner := firstWaiting_owner hw
      have waits : readyAtOnce w.cmd w.operands s = false := by
        revert owner
        cases w.cmd <;> simp_all [ownerOf, readyAtOnce]
      rw [if_neg (by rw [waits]; nofun)]

theorem advanceAll_none {o : Owner} {s : State} (h : ∀ w ∈ s.ctl.waiting, ownerOf w.cmd w.operands ≠ o) :
    advanceAll o s = s := advance_none _ h

/-! ### The owners' answers -/

theorem probeBytes_eq (p : Probe) :
    p.bytes = BitVec.ofNat 8 (oneIf p.level + 2 * oneIf p.glitch) :: (twoBytes p.edgesNow ++ twoBytes p.edgesLast) := by
  unfold Probe.bytes
  rw [beBytes_two, beBytes_two]
  cases p.level <;> cases p.glitch <;> rfl

theorem configBytes_eq (c : LaneConfig) : c.bytes = configBytes c := by
  have code (b : Byte) : BitVec.ofNat 8 b.toNat = b := by simp
  unfold LaneConfig.bytes configBytes PinMap.entries
  rw [configCodes_code]
  simp [code, boolByte_eq, byteOf, Function.comp_def]

theorem statusBytes_eq (l : Lane) : l.statusBytes =
    [(match l.state with
      | .off => 0
      | .seeking => 1
      | .idle => 2
      | .inFrame => 3), BitVec.ofNat 8 (oneIf l.enabled)]
      ++ configBytes l.cfg ++ twoBytes l.flags.toNat
      ++ [BitVec.ofNat 8 (oneIf l.slot.isSome), BitVec.ofNat 8 l.pointers.length] := by
  unfold Lane.statusBytes
  rw [configBytes_eq, beBytes_two, boolByte_eq, boolByte_eq]
  cases l.state <;> rfl

theorem serveProbeRead_refused {ops : List Byte} (s : State) (h : 1 < byteAt ops 0) :
    serveProbeRead ops s = (s, .refuse .badOperand) := by
  rw [serveProbeRead, flagOf_none.2 h]

theorem serveProbeRead_option {ops : List Byte} (s : State) (h : byteAt ops 0 ≤ 1) : serveProbeRead ops s
    = (s.setPfe { s.pfe with probes := (if byteAt ops 0 = 0 then s.pfe.probes else
        Vector.ofFn fun i => { s.pfe.probes[i] with clearNote := (s.pfe.probes[i]).glitch }) }, ⟨.ok, probeSnapshot s⟩) := by
  have noted : mapAll (fun p : Probe => { p with clearNote := p.glitch }) s.pfe.probes
      = Vector.ofFn fun i => { s.pfe.probes[i] with clearNote := (s.pfe.probes[i]).glitch } :=
    Vector.ext fun k hk => by simp [mapAll]
  rw [serveProbeRead, flagOf_some h]
  have : byteAt ops 0 = 0 ∨ byteAt ops 0 = 1 := by omega
  rcases this with h0 | h1
  · rw [h0]
    rfl
  · rw [h1, ← noted]
    rfl

theorem serveLaneStatus_refused {ops : List Byte} {i : Fin 4} (s : State) (hi : byteAt ops 0 = i.val) (h : 1 < byteAt ops 1) :
    serveLaneStatus ops s = (s, .refuse .badOperand) := by
  rw [serveLaneStatus, flagOf_none.2 h, laneOf_val.2 hi]

theorem serveLaneStatus_option {ops : List Byte} {i : Fin 4} (s : State) (hi : byteAt ops 0 = i.val) (h : byteAt ops 1 ≤ 1) :
    serveLaneStatus ops s = (s.setLanes (if byteAt ops 1 = 0 then s.lanes else
      s.lanes.set i { s.lanes[i] with notes := (s.lanes[i]).flags }), ⟨.ok, (s.lanes[i]).statusBytes⟩) := by
  rw [serveLaneStatus, flagOf_some h, laneOf_val.2 hi]
  have : byteAt ops 1 = 0 ∨ byteAt ops 1 = 1 := by omega
  rcases this with h0 | h1
  · rw [h0]
    rfl
  · rw [h1]
    rfl

theorem serveSleep_busy {s : State} (h : s.pim.op ≠ .none) : serveSleep s = (s, .refuse .busy) := if_pos (profileBusy_iff.2 h)

theorem serveSleep_accepted {s : State} (h : s.pim.op = .none) : serveSleep s = (s, ⟨.ok, []⟩) :=
  if_neg fun busy => profileBusy_iff.1 busy h

/-- An open command of an owner that no other one waits for, with its answer (R176). -/
theorem exec_owned {c : Cmd} {ops : List Byte} {a : Answer} {s t : State} (h : Waits c ops s) (hc : atLink c = false)
    (hr : c ≠ .restart) (hn : ∀ u : State, u.ctl.waiting = s.ctl.waiting.erase ⟨c, ops, false⟩ → advanceAll (ownerOf c ops) u = u)
    (hs : serve c ops (dequeue ⟨c, ops, false⟩ s) = (t, a)) (ht : t.ctl = (dequeue ⟨c, ops, false⟩ s).ctl) :
    live (commandAt .served c (Frame.ofOperands ops)) s = .next (settle (t.setCtl (servedCtl c ops a s))) := by
  have ⟨running, power, _⟩ := h
  have answer : sendAnswer (some c) a t = t.setCtl (servedCtl c ops a s) := by
    simp [sendAnswer, ht, dequeue, servedCtl, hr]
  rw [live_next running]
  simp only [commandAt, commandServed, nextServed_waits h, if_neg power, hc, Bool.false_eq_true, if_false, serveNext,
    serveWaiting, respond, hs, answer]
  rw [hn _ rfl]

/-- The commands served at LINK whose OK answer leaves nothing to drop when their transaction is cut (R178). -/
theorem linkRow_facts {c : Cmd} {row : Instr} {f : Frame} (ops : List Byte)
    (h : (c, row) ∈ [(.lookup, .lookup .served f), (.walkFrom, .walkFrom .served f), (.seed, .seed .served f),
      (.amend, .amend .served f), (.retire, .retire .served f), (.clearTable, .clearTable .served f),
      (.tableInfo, .tableInfo .served f), (.hold, .hold .served f), (.watchSet, .watchSet .served f),
      (.trapSet, .trapSet .served f)]) :
    (∀ s, exec row s = live (commandAt .served c f) s) ∧ ownerOf c ops = .rte ∧ ∀ s, afterCut c ops s = s := by
  simp only [List.mem_cons, Prod.mk.injEq, List.not_mem_nil, or_false] at h
  rcases h with h | h | h | h | h | h | h | h | h | h <;> obtain ⟨rfl, rfl⟩ := h <;>
    exact ⟨fun _ => rfl, rfl, fun _ => rfl⟩

/-- The answer of WALK is dropped with its note of the cursor (R107, R178). -/
theorem afterCut_walk (ops : List Byte) (s : State) : afterCut .walk ops s = s.setRte { s.rte with walkNote := none } := rfl

theorem afterCut_probeRead (ops : List Byte) (s : State) : afterCut .probeRead ops s = s.setPfe { s.pfe with
    probes := Vector.ofFn fun i => { s.pfe.probes[i] with clearNote := false } } :=
  congrArg (fun p => s.setPfe { s.pfe with probes := p }) (Vector.ext fun k hk => by simp [mapAll])

theorem afterCut_laneStatus {ops : List Byte} {i : Fin 4} (hi : byteAt ops 0 = i.val) (s : State) :
    afterCut .laneStatus ops s = s.setLanes (s.lanes.set i { s.lanes[i] with notes := 0 }) := by
  show (laneOf (byteAt ops 0)).elim s (fun i => modifyLane i Lane.dropNotes s) = _
  rw [laneOf_val.2 hi]
  rfl

theorem settle_withoutNote (p : Position) (s : State) : settle (finishUnit p (s.setRte { s.rte with walkNote := none }))
    = (settle (finishUnit p s)).setRte { (settle (finishUnit p s)).rte with walkNote := none } := rfl

theorem serveWalk_ok {ops : List Byte} (s : State) (h : byteAt ops 0 ≠ 0) : (serveWalk ops s).2.status = .ok := by
  rw [serveWalk, if_neg h]

theorem advanceAll_laneStatus {ops : List Byte} {i : Fin 4} (hi : byteAt ops 0 = i.val) (s : State) :
    advanceAll (ownerOf .laneStatus ops) s = s :=
  (congrArg (fun i => advanceAll (.lane i) s) (laneOf_val.2 hi)).trans (advance_lane i _ s)

/-- A command served by its owner with its transaction cut, no other one of that owner waiting at once (R177, R178). -/
theorem exec_cut {c : Cmd} {ops : List Byte} {pre post : List Waiting} {s shut t : State} (hc : atLink c = false)
    (hl : ops.length = c.operandLength) (hr : s.inReset = false) (hp : s.pwu.power ≠ .sleep)
    (hpre : ∀ w ∈ pre, ownerOf w.cmd w.operands ≠ ownerOf c ops)
    (hshut : shut = { s with ctl := { s.ctl with waiting := pre ++ ⟨c, ops, true⟩ :: post } })
    (hs : respond c ops true (serve c ops (unqueued pre post s)).2 (serve c ops (unqueued pre post s)).1 = t)
    (hn : advanceAll (ownerOf c ops) t = t) :
    live (commandAt .served c (Frame.ofOperands ops)) shut = .next (settle t) := by
  have shutWaits : shut.ctl.waiting = pre ++ ⟨c, ops, true⟩ :: post := by rw [hshut]
  have sameQueue : unqueued pre post shut = unqueued pre post s := by rw [hshut]; rfl
  have served := commandServed_owned shutWaits hpre hl (by rw [hshut]; exact hp) hc
  rw [sameQueue, hs] at served
  rw [live_next (by rw [hshut]; exact hr), commandAt, served fun u hu => hu ▸ hn]

/-- Settles O31: at LINK by `served_open_cut`, the owners by `commandServed_owned` and `exec_owned`. -/
theorem ownersServeInTurn : Obligations.OwnersServeInTurn := by
  refine ⟨probeBytes_eq, statusBytes_eq, ?_, ?_⟩
  · rintro s c row ops f pre post shut rfl hl hr hp hw hpre hshut
    refine ⟨fun hs hrow => ?_, fun hs hc hn => ?_, fun hpost => ?_⟩
    · obtain ⟨same, owner, nothing⟩ := linkRow_facts ops hrow
      obtain ⟨t, opened, cut, left⟩ := served_open_cut hl hr hp hs owner hw hpre hshut
      refine ⟨t, (same s).trans opened, (same shut).trans (cut.trans ?_)⟩
      rw [respond_cut, nothing, ite_self, left]
      rfl
    · subst hc
      obtain ⟨t, opened, cut, left⟩ := served_open_cut hl hr hp hs rfl hw hpre hshut
      refine ⟨t, opened, cut.trans ?_⟩
      have ok : (serve .walk ops (unqueued pre post s)).2.status = .ok := serveWalk_ok _ hn
      rw [respond_cut, if_pos ok, afterCut_walk, settle_withoutNote, left]
      rfl
    have others : ∀ w ∈ pre ++ post, ownerOf w.cmd w.operands ≠ ownerOf c ops :=
      fun w hm => (List.mem_append.1 hm).elim (hpre w) (hpost w)
    refine ⟨fun hc ho => ?_, fun i hc hi ho => ?_, fun hc hb => ?_, fun hc hf hop => ?_⟩
    · subst hc
      have answer : serve .probeRead ops (unqueued pre post s) = _ := serveProbeRead_option _ ho
      refine exec_cut rfl hl hr hp hpre hshut ?_ (advanceAll_none others)
      rw [answer, respond_cut, if_pos rfl, afterCut_probeRead]
      refine congrArg (fun p => (unqueued pre post s).setPfe { s.pfe with probes := p }) (Vector.ext fun k hk => ?_)
      rcases Nat.eq_zero_or_pos (byteAt ops 0) with h0 | h1
      · simp [State.setPfe, h0, unqueued, State.setCtl]
      · simp [State.setPfe, Nat.ne_of_gt h1, unqueued, State.setCtl]
    · subst hc
      have answer : serve .laneStatus ops (unqueued pre post s) = _ := serveLaneStatus_option _ hi ho
      refine exec_cut rfl hl hr hp hpre hshut ?_ (advanceAll_laneStatus hi _)
      rw [answer, respond_cut, if_pos rfl, afterCut_laneStatus hi]
      refine congrArg (fun l => (unqueued pre post s).setLanes l) (Vector.ext fun k hk => ?_)
      rcases Nat.eq_zero_or_pos (byteAt ops 1) with h0 | h1
      · simp [State.setLanes, h0, unqueued, State.setCtl]
      · simp [State.setLanes, Nat.ne_of_gt h1, unqueued, State.setCtl]
    · subst hc
      have answer : serve .sleep ops (unqueued pre post s) = _ := serveSleep_busy (s := unqueued pre post s) hb
      refine exec_cut rfl hl hr hp hpre hshut ?_ (advanceAll_none others)
      rw [answer]
      rfl
    · subst hc
      have answer : serve .sleep ops (unqueued pre post s) = _ := serveSleep_accepted (s := unqueued pre post s) hf
      have effect := beginSleepEntry_effect (s := unqueued pre post s) hop hp
      have reply : respond .sleep ops true (serve .sleep ops (unqueued pre post s)).2 (serve .sleep ops (unqueued pre post s)).1
          = beginSleepEntry (unqueued pre post s) := by rw [answer]; rfl
      have cut := exec_cut rfl hl hr hp hpre hshut (reply.trans effect)
        (advanceAll_none others)
      exact ⟨_, cut, rfl, rfl, s.dse.turnedOff_panelOn, mapAll_stop_get s, rfl, rfl, rfl, rfl⟩
  · rintro s ops f rfl
    refine ⟨fun h hn => ⟨fun ho => ?_, fun ho => ?_⟩, fun i h hi => ⟨fun ho => ?_, fun ho => ?_⟩,
      fun h hn => ⟨fun hb => ?_, fun hf => ⟨?_, rfl⟩⟩⟩
    · have row := exec_owned h rfl nofun (fun u hu => advanceAll_none (by rw [hu]; exact hn))
        (serveProbeRead_refused (dequeue ⟨.probeRead, ops, false⟩ s) ho) rfl
      exact row
    · have row := exec_owned h rfl nofun (fun u hu => advanceAll_none (by rw [hu]; exact hn))
        (serveProbeRead_option (dequeue ⟨.probeRead, ops, false⟩ s) ho) rfl
      exact row
    · have row := exec_owned h rfl nofun (fun u _ => advanceAll_laneStatus hi u)
        (serveLaneStatus_refused (dequeue ⟨.laneStatus, ops, false⟩ s) hi ho) rfl
      exact row
    · have row := exec_owned h rfl nofun (fun u _ => advanceAll_laneStatus hi u)
        (serveLaneStatus_option (dequeue ⟨.laneStatus, ops, false⟩ s) hi ho) rfl
      exact row
    · have row := exec_owned h rfl nofun (fun u hu => advanceAll_none (by rw [hu]; exact hn))
        (serveSleep_busy (s := dequeue ⟨.sleep, ops, false⟩ s) hb) rfl
      exact row
    · have row := exec_owned h rfl nofun (fun u hu => advanceAll_none (by rw [hu]; exact hn))
        (serveSleep_accepted (s := dequeue ⟨.sleep, ops, false⟩ s) hf) rfl
      exact row

end Sys2Proof.Machine
end

section
/-! PROOF. The timers (R7, R86, R158, R159), and the completion of profile operations with the stages of a store (R187, R194). -/

namespace Sys2Proof.Machine

/-! ### The epoch timer -/

theorem rollOver_all (s : State) : mapAll Probe.rollOver s.pfe.probes = Vector.ofFn fun i =>
    { s.pfe.probes[i] with edgesLast := (s.pfe.probes[i]).edgesNow, edgesNow := 0 } :=
  Vector.ext fun k hk => by simp [mapAll, Probe.rollOver]

/-- Settles O44: the counter and the edge counts move while the timer runs. -/
theorem epochExpiryClosesTheEpoch : Obligations.EpochExpiryClosesTheEpoch := by
  refine fun s running => ⟨fun ht => ?_, fun ht => ?_⟩
  · refine (live_next running).trans (congrArg (fun t => Host.Outcome.next (settle t)) ?_)
    rw [epochExpiry, if_pos ht, rollOver_all]
    rfl
  · refine (live_next running).trans (congrArg (fun t => Host.Outcome.next (settle t)) ?_)
    rw [epochExpiry, if_neg (by rw [ht]; nofun)]

/-! ### The chain timers -/

theorem timerRuns_none {t : ChainTimer} {s : State} (h : ∀ n, s.pwu.timer ≠ some (t, n)) : ¬ timerRuns t s = true :=
  fun runs => (timerRuns_iff.1 runs).elim h

theorem withdrawLines_eq (port : List PanelMessage) : withdrawLines port = match port with
    | [] => []
    | m :: ms => m :: ms.filter fun x => !x.isLine := by
  cases port <;> rfl

theorem stopAll_eq (s : State) : mapAll (Lane.stop s.pfe.levels) s.lanes
    = Vector.ofFn fun i => stoppedLane s.pfe.levels s.lanes[i] :=
  Vector.ext fun k hk => by simp [mapAll, stop_eq]

/-- Sleep entry that begins with the panel OFF (R162). -/
theorem beginSleepEntry_panelOff {s : State} (ho : s.pwu.op = .none) (hp : s.pwu.power ≠ .sleep) (hd : s.dse.panelOn = false) :
    beginSleepEntry s = sleepEntered s := by
  have off : s.dse.turnedOff = s.dse := if_neg (by rw [hd]; nofun)
  rw [beginSleepEntry_effect ho hp, off, stopAll_eq]
  rfl

/-- Settles O45: each timer in the state it runs in. -/
theorem chainTimersExpire : Obligations.ChainTimersExpire := by
  intro s running
  refine ⟨fun n hp ht => ?_, fun n hp ht hon => ?_, fun n hp ht hoff => ?_, fun n hp ht hop => ?_, fun n hp ht hf ho hoff => ?_,
    fun ht => ?_, fun ht => ?_, fun ht => ?_⟩
  all_goals refine (live_next running).trans (congrArg (fun t => Host.Outcome.next (settle t)) ?_)
  · rw [dimExpiry, if_pos ⟨hp, timerRuns_iff.2 ⟨n, ht⟩⟩, refreshTimerMoves_eq]
    rfl
  · rw [darkExpiry, if_pos ⟨hp, timerRuns_iff.2 ⟨n, ht⟩⟩, panelTurnOff_on (by exact hon), withdrawLines_eq]
    rfl
  · rw [darkExpiry, if_pos ⟨hp, timerRuns_iff.2 ⟨n, ht⟩⟩, panelTurnOff_off (by exact hoff)]
    rfl
  · rw [sleepExpiry, if_pos ⟨hp, timerRuns_iff.2 ⟨n, ht⟩⟩, if_pos (profileBusy_iff.2 hop)]
    rfl
  · rw [sleepExpiry, if_pos ⟨hp, timerRuns_iff.2 ⟨n, ht⟩⟩, if_neg fun busy => profileBusy_iff.1 busy hf]
    exact beginSleepEntry_panelOff ho (by rw [hp]; nofun) hoff
  · exact if_neg fun runs => timerRuns_none ht runs.2
  · exact if_neg fun runs => timerRuns_none ht runs.2
  · exact if_neg fun runs => timerRuns_none ht runs.2

/-! ### A profile operation completes -/

/-- The completion of an operation, a deferred expiry of the sleep timer taken with it (R187). -/
theorem takeDeferred_completeOp {s : State} (hd : DeferredLaw s) (last : LastOutcome) :
    takeDeferred (completeOp last s) = profileCompleted last s := by
  unfold takeDeferred profileCompleted
  have deferred : (completeOp last s).pwu.deferred = s.pwu.deferred := rfl
  rw [deferred]
  by_cases h : s.pwu.deferred = true
  · obtain ⟨hp, ho, hoff⟩ := hd h
    have awake : s.pwu.power ≠ .sleep := by rw [hp]; nofun
    rw [if_pos h, if_pos h]
    exact beginSleepEntry_panelOff (s := (completeOp last s).setPwu { s.pwu with deferred := false }) ho awake hoff
  · rw [if_neg h, if_neg h]
    rfl

/-! ### The flash under a store -/

/-- Cells with distinct offsets, written one by one: each offset named reads as its cell, every other one as before. -/
theorem read_cells {ds : List Host.Cell} (h : (ds.map (·.1)).Nodup) (m : Flash) (a : Nat) :
    Flash.read (ds.foldl (fun m d => m.write d.1 d.2) m) a = ((ds.find? fun d => d.1 = a).map (·.2)).getD (m.read a) := by
  induction ds generalizing m with
  | nil => rfl
  | cons d ds ih =>
    obtain ⟨fresh, rest⟩ := List.nodup_cons.1 h
    rw [List.foldl_cons, ih rest, Flash.read_write, List.find?_cons]
    by_cases hd : d.1 = a
    · have none : ds.find? (fun d => decide (d.1 = a)) = none :=
        List.find?_eq_none.2 fun x hx => by
          simp only [decide_eq_true_eq]
          rintro rfl
          exact fresh (List.mem_map.2 ⟨x, hx, hd.symm⟩)
      simp [none, hd]
    · simp [hd, Ne.symm hd]

/-- The flash after PROGRAM, read at every offset (R194). -/
theorem read_programmed {image : List Byte} (hi : 4 ≤ image.length) {ds : List Host.Cell} (hd : (ds.map (·.1)).Nodup)
    (m : Flash) (a : Nat) : Flash.read ((m.programImage image).withDefects image.length ds) a
      = if a ≠ 3 ∧ a < image.length then ((ds.find? fun d => d.1 = a).map (·.2)).getD (image.getD a 0) else m.read a := by
  have placed : Flash.read (m.programImage image) a = if a ≠ 3 ∧ a < image.length then image.getD a 0 else m.read a := by
    rw [Flash.programImage, Flash.read_writeAll, Flash.read_writeAll, List.length_take, List.length_drop]
    rcases Nat.lt_or_ge a 3 with h3 | h3
    · rw [if_pos (by omega), if_pos (by omega)]
      simp [List.getD_eq_getElem?_getD, h3]
    · rw [if_neg (by omega)]
      by_cases h : a ≠ 3 ∧ a < image.length
      · rw [if_pos (by omega), if_pos h, List.getD_eq_getElem?_getD, List.getElem?_drop, List.getD_eq_getElem?_getD]
        congr 3
        omega
      · rw [if_neg (by omega), if_neg h]
  have distinct : ((ds.filter fun d => programmed image.length d.1).map (·.1)).Nodup :=
    hd.sublist (List.filter_sublist.map _)
  have inside : programmed image.length a = true ↔ a ≠ 3 ∧ a < image.length := by
    simp only [programmed, Bool.or_eq_true, Bool.and_eq_true, decide_eq_true_eq]
    omega
  rw [Flash.withDefects, read_cells distinct, placed, List.find?_filter]
  split_ifs with h
  · have same : (fun d : Host.Cell => programmed image.length d.1 && decide (d.1 = a)) = fun d => decide (d.1 = a) := by
      funext d
      by_cases hda : d.1 = a
      · simp [hda, inside.2 h]
      · simp [hda]
    simp only [Bool.decide_and, Bool.decide_eq_true, same]
  · have none : ds.find? (fun d => decide (programmed image.length d.1 = true ∧ decide (d.1 = a) = true)) = none :=
      List.find?_eq_none.2 fun d _ => by
        simp only [decide_eq_true_eq]
        rintro ⟨hp, rfl⟩
        exact h (inside.1 hp)
    rw [none]
    rfl

/-- Bytes read back from an offset of the image. -/
theorem readAll_eq_iff (m : Flash) (a : Nat) (bs : List Byte) :
    m.readAll a bs.length = bs ↔ ∀ i, i < bs.length → m.read (a + i) = bs.getD i 0 := by
  have length : (m.readAll a bs.length).length = bs.length := by simp [Flash.readAll]
  refine ⟨fun h i hi => ?_, fun h => List.ext_getElem length fun i hi hb => ?_⟩
  · rw [List.getD_eq_getElem _ _ hi, List.getElem_of_eq h.symm hi]
    simp [Flash.readAll]
  · have := h i hb
    rw [List.getD_eq_getElem _ _ hb] at this
    simpa [Flash.readAll] using this

/-- VERIFY compares every byte of the image but the fourth (R194). -/
theorem verifies_iff {image : List Byte} (hi : 4 ≤ image.length) (m : Flash) : m.verifies image = true ↔
    ∀ a, a < image.length → a ≠ 3 → m.read a = image.getD a 0 := by
  have tail : (image.drop 4).length = image.length - 4 := List.length_drop
  have head : (image.take 3).length = 3 := by rw [List.length_take]; omega
  have h4 := readAll_eq_iff m 4 (image.drop 4)
  have h0 := readAll_eq_iff m 0 (image.take 3)
  rw [tail] at h4
  rw [head] at h0
  rw [Flash.verifies, Bool.and_eq_true, beq_iff_eq, beq_iff_eq, h4, h0]
  refine ⟨fun ⟨high, low⟩ a ha h3 => ?_, fun h => ⟨fun i hlt => ?_, fun i hlt => ?_⟩⟩
  · rcases Nat.lt_or_ge a 3 with hlow | hhigh
    · simpa [List.getD_eq_getElem?_getD, List.getElem?_take, hlow] using low a hlow
    · have := high (a - 4) (by omega)
      rw [show 4 + (a - 4) = a by omega, List.getD_eq_getElem?_getD, List.getElem?_drop,
        show 4 + (a - 4) = a by omega] at this
      rw [this, List.getD_eq_getElem?_getD]
  · rw [h (4 + i) (by omega) (by omega), List.getD_eq_getElem?_getD, List.getD_eq_getElem?_getD, List.getElem?_drop]
  · rw [Nat.zero_add, h i (by omega) (by omega)]
    simp [List.getD_eq_getElem?_getD, hlt]

/-- Settles O43: each stage writes the flash, read by `Flash.read_write` and its like; VERIFY by `verifies_iff`. -/
theorem storeStagesWriteTheFlash : Obligations.StoreStagesWriteTheFlash := by
  intro s running _
  refine ⟨fun hop => ⟨s.pim.flash.write 3 0x00, ?_, fun a => Flash.read_write _ _ _ _⟩,
    fun hop => ⟨s.pim.flash.eraseRange 4 8335, ?_, fun a => Flash.read_eraseRange _ _ _ _⟩,
    fun ds hop hi hd => ⟨_, ?_, fun a => read_programmed hi hd s.pim.flash a⟩,
    fun hop hi => ⟨fun same => ?_, fun differ hdef => ?_⟩,
    fun hop hdef => ⟨s.pim.flash.write 3 0xA8, ?_, fun a => Flash.read_write _ _ _ _⟩⟩
  all_goals refine (live_next running).trans (congrArg (fun t => Host.Outcome.next (settle t)) ?_)
  · exact if_pos hop
  · exact if_pos hop
  · exact if_pos hop
  · exact (if_pos hop).trans (if_pos ((verifies_iff hi _).2 same))
  · refine (if_pos hop).trans ((if_neg fun read => ?_).trans (takeDeferred_completeOp hdef _))
    obtain ⟨a, ha, h3, hne⟩ := differ
    exact hne ((verifies_iff hi _).1 read a ha h3)
  · exact (if_pos hop).trans
      (takeDeferred_completeOp (s := s.setPim { s.pim with flash := s.pim.flash.write 3 0xA8 }) hdef _)

end Sys2Proof.Machine
end

section
/-! PROOF. The start of a refresh and its table rows (R148, R149, R150, R153), and the judgement of an image with the completion
of a load (R155, R180, R187, R188, R189, R192). -/

namespace Sys2Proof.Machine

/-! ### The table rows of a snapshot -/

theorem rowsInScope_eq (holdOn : Bool) (rows : Vector Row 16) :
    rowsInScope holdOn rows = ((List.finRange 16).map fun i => (i, rows[i])).filter fun x => !holdOn || x.2.rebound := by
  rw [rowsInScope, indexedRows, Vector.toList_ofFn, List.ofFn_eq_map]

/-- An AUTO row that is composed (R149, R153). -/
def autoComposed (holdOn : Bool) (rows : Vector Row 16) (i : Fin 16) : Bool :=
  (rows[i]).binding = .auto && rowComposed holdOn rows i

theorem autosAbove_split {holdOn : Bool} {rows : Vector Row 16} {pre post : List (Fin 16)} {i : Fin 16}
    (h : List.finRange 16 = pre ++ i :: post) :
    autosAbove holdOn rows i = (pre.filter (autoComposed holdOn rows)).length := by
  have sorted : (pre ++ i :: post).Pairwise (· < ·) := h ▸ List.pairwise_lt_finRange 16
  obtain ⟨_, later, earlier⟩ := List.pairwise_append.1 sorted
  have below : (pre ++ i :: post).filter (fun j => j.val < i.val && (rows[j]).binding = .auto && rowComposed holdOn rows j)
      = pre.filter (autoComposed holdOn rows) := by
    have none : (i :: post).filter (fun j => j.val < i.val && (rows[j]).binding = .auto && rowComposed holdOn rows j) = [] :=
      List.filter_eq_nil_iff.2 fun j hj => by
        have notBelow : ¬ j.val < i.val := by
          rcases List.mem_cons.1 hj with rfl | hp
          · exact Nat.lt_irrefl _
          · exact Nat.not_lt.2 (Nat.le_of_lt (List.rel_of_pairwise_cons later hp))
        simp [notBelow]
    rw [List.filter_append, none, List.append_nil]
    refine List.filter_congr fun j hj => ?_
    have isBelow : j.val < i.val := earlier j hj i List.mem_cons_self
    simp [autoComposed, isBelow]
  rw [autosAbove, h, below]

/-- The table row of row `i`, the ranked list giving its keys (R149, R150, R153). -/
def tableRowAt (holdOn : Bool) (rows : Vector Row 16) (keys : List Key) (i : Fin 16) : Option (Fin 16 × TableRow) :=
  if rowComposed holdOn rows i = false then none
  else match (rows[i]).binding with
    | .record k => some (i, .record k)
    | .watch n => some (i, .watch n)
    | .auto => keys[autosAbove holdOn rows i]?.map fun k => (i, .auto k)
    | .empty | .probe _ => none

theorem tableRows_eq (holdOn : Bool) (rows : Vector Row 16) (keys : List Key) :
    tableRows holdOn rows keys = (List.finRange 16).filterMap (tableRowAt holdOn rows keys) := rfl

section
variable {row : Row} (i : Fin 16) (rest : List (Fin 16 × Row)) (keys : List Key)

theorem planRows_record {k : Key} (h : row.binding = .record k) :
    planRows ((i, row) :: rest) keys = (i, .record k) :: planRows rest keys := by simp [planRows, h]

theorem planRows_watch {n : Fin 8} (h : row.binding = .watch n) :
    planRows ((i, row) :: rest) keys = (i, .watch n) :: planRows rest keys := by simp [planRows, h]

theorem planRows_empty (h : row.binding = .empty) : planRows ((i, row) :: rest) keys = planRows rest keys := by
  simp [planRows, h]

theorem planRows_probe {p : Fin 16} (h : row.binding = .probe p) : planRows ((i, row) :: rest) keys = planRows rest keys := by
  simp [planRows, h]

theorem planRows_auto_nil (h : row.binding = .auto) : planRows ((i, row) :: rest) [] = planRows rest [] := by
  simp [planRows, h]

theorem planRows_auto_cons {k : Key} {ks : List Key} (h : row.binding = .auto) :
    planRows ((i, row) :: rest) (k :: ks) = (i, .auto k) :: planRows rest ks := by simp [planRows, h]

end

/-- The plan from row `post` on, the composed AUTO rows of `pre` having taken their keys. -/
theorem planRows_from {holdOn : Bool} {rows : Vector Row 16} (keys : List Key) {pre post : List (Fin 16)}
    (h : List.finRange 16 = pre ++ post) :
    planRows ((post.map fun i => (i, rows[i])).filter fun x => !holdOn || x.2.rebound)
        (keys.drop (pre.filter (autoComposed holdOn rows)).length)
      = post.filterMap (tableRowAt holdOn rows keys) := by
  induction post generalizing pre with
  | nil => rfl
  | cons i post ih =>
    have above := autosAbove_split (holdOn := holdOn) (rows := rows) h
    have rest := ih (pre := pre ++ [i]) (by rw [h, List.append_assoc]; rfl)
    rw [List.filter_append, List.filter_singleton] at rest
    rw [List.map_cons, List.filterMap_cons, tableRowAt, above]
    cases hc : rowComposed holdOn rows i with
    | false =>
      rw [List.filter_cons_of_neg (by rw [rowComposed] at hc; simpa using hc), if_pos rfl]
      simpa [autoComposed, hc] using rest
    | true =>
      rw [List.filter_cons_of_pos (by rw [rowComposed] at hc; simpa using hc), if_neg nofun]
      have auto : autoComposed holdOn rows i = decide ((rows[i]).binding = .auto) := by rw [autoComposed, hc, Bool.and_true]
      rw [auto] at rest
      cases hb : (rows[i]).binding with
      | auto =>
        rw [hb] at rest
        cases hk : keys.drop (pre.filter (autoComposed holdOn rows)).length with
        | nil =>
          have short : keys.length ≤ (pre.filter (autoComposed holdOn rows)).length := List.drop_eq_nil_iff.1 hk
          have none : keys.drop (pre.filter (autoComposed holdOn rows) ++ [i]).length = [] :=
            List.drop_eq_nil_iff.2 (by rw [List.length_append]; omega)
          rw [planRows_auto_nil _ _ hb, List.getElem?_eq_none short]
          exact (congrArg (planRows _) none.symm).trans rest
        | cons k ks =>
          have here : keys[(pre.filter (autoComposed holdOn rows)).length]? = some k := by
            rw [← List.head?_drop, hk]
            rfl
          have others : keys.drop (pre.filter (autoComposed holdOn rows) ++ [i]).length = ks := by
            rw [List.length_append, ← List.drop_drop, hk]
            rfl
          rw [planRows_auto_cons _ _ hb, here]
          exact congrArg ((i, TableRow.auto k) :: ·) ((congrArg (planRows _) others.symm).trans rest)
      | record k =>
        rw [hb] at rest
        rw [planRows_record _ _ _ hb]
        exact congrArg ((i, TableRow.record k) :: ·) (by simpa using rest)
      | watch n =>
        rw [hb] at rest
        rw [planRows_watch _ _ _ hb]
        exact congrArg ((i, TableRow.watch n) :: ·) (by simpa using rest)
      | empty =>
        rw [hb] at rest
        rw [planRows_empty _ _ _ hb]
        simpa using rest
      | probe p =>
        rw [hb] at rest
        rw [planRows_probe _ _ _ hb]
        simpa using rest

theorem drawingPhase_eq (holdOn : Bool) (rows : Vector Row 16) (keys : List Key) :
    drawingPhase holdOn rows keys = .drawing (tableRows holdOn rows keys) [] := by
  have plan := planRows_from (holdOn := holdOn) (rows := rows) keys (pre := []) (post := List.finRange 16) rfl
  rw [drawingPhase, rowsInScope_eq, tableRows_eq, ← plan]
  rfl

theorem autoCount_zero {rows : Vector Row 16} : autoCount rows = 0 ↔ ∀ i : Fin 16, (rows[i]).binding ≠ .auto := by
  rw [autoCount, List.length_eq_zero_iff, List.filter_eq_nil_iff]
  refine ⟨fun h i => ?_, fun h r hr => ?_⟩
  · simpa using h rows[i] (by simp)
  · obtain ⟨i, hi, rfl⟩ := List.mem_iff_getElem.1 hr
    have := h ⟨i, by simpa using hi⟩
    simpa using this

theorem newRefresh_eq (isRepaint : Bool) (s : State) : newRefresh isRepaint s = refreshStarted isRepaint s := by
  have phase : (s.rte.hold || autoCount s.dse.rows = 0) = true
      ↔ s.rte.hold = true ∨ ∀ i : Fin 16, (s.dse.rows[i]).binding ≠ .auto := by
    rw [Bool.or_eq_true, decide_eq_true_eq, autoCount_zero]
  unfold newRefresh refreshStarted
  simp only [phase, drawingPhase_eq]
  rfl

/-- The panel that comes ON in RUN or DIM, with its repaint (R155). -/
theorem panelTurnOn_cameOn {s : State} (h : s.dse.panelOn = false) (hd : startUpDone s = true) :
    panelTurnOn s = s.setDse (panelCameOn (refreshPeriod s.pwu.power) s) := by
  rw [panelTurnOn, if_neg (by rw [h, hd]; nofun), startRefresh, newRefresh_eq]
  rfl

/-! ### The RELEASEs that wait for the start-up load -/

theorem answeredCtl_none {mine : Waiting → Bool} {c : Ctl} (h : ∀ w ∈ c.waiting, mine w = false) (a : Answer) :
    answeredCtl mine a c = c := by
  have none : c.waiting.any (fun w => mine w && !w.cut) = false := List.any_eq_false.2 fun w hw => by simp [h w hw]
  have all : c.waiting.filter (fun w => !mine w) = c.waiting := List.filter_eq_self.2 fun w hw => by simp [h w hw]
  rw [answeredCtl, none, all]
  rfl

/-- One of the commands answered before the others. -/
theorem answeredCtl_answerOne {mine : Waiting → Bool} {c : Ctl} {w : Waiting} (hw : w ∈ c.waiting) (hm : mine w = true)
    (a : Answer) : answeredCtl mine a (answerOne a c w) = answeredCtl mine a c := by
  have whole : c.waiting.any (fun w => mine w && !w.cut) = (!w.cut || (c.waiting.erase w).any fun w => mine w && !w.cut) := by
    rw [(List.perm_cons_erase hw).any_eq, List.any_cons, hm, Bool.true_and]
  have others : (c.waiting.erase w).filter (fun w => !mine w) = c.waiting.filter fun w => !mine w := by
    rw [← List.erase_filter, List.erase_of_not_mem]
    exact fun h => absurd (List.mem_filter.1 h).2 (by simp [hm])
  unfold answeredCtl answerOne
  simp only [whole, others]
  cases w.cut <;> cases (c.waiting.erase w).any (fun w => mine w && !w.cut) <;> rfl

theorem serveWaiting_release {w : Waiting} {s : State} (hw : w.cmd = .release) :
    serveWaiting w s = s.setCtl (answerOne ⟨.ok, s.ctl.record.bytes⟩ s.ctl w) := by
  unfold serveWaiting respond answerOne
  rw [hw]
  cases w.cut <;> rfl

theorem advance_releases {s : State} (hd : startUpDone s = true) (n : Nat) {c : Ctl} (hn : c.waiting.length ≤ n)
    (hc : ∀ w ∈ c.waiting, ownerOf w.cmd w.operands = .ctl → w.cmd = .release) : advance .ctl n (s.setCtl c)
      = s.setCtl (answeredCtl (fun w => w.cmd = .release) ⟨.ok, c.record.bytes⟩ c) := by
  induction n generalizing c with
  | zero =>
    have none : c.waiting = [] := List.length_eq_zero_iff.1 (Nat.le_zero.1 hn)
    rw [answeredCtl_none (by rw [none]; nofun)]
    rfl
  | succ n ih =>
    rw [advance]
    cases hf : firstWaiting .ctl (s.setCtl c) with
    | none =>
      have noRelease : ∀ w ∈ c.waiting, decide (w.cmd = .release) = false := fun w hw => by
        have := List.find?_eq_none.1 hf w hw
        simp only [decide_eq_true_eq] at this
        refine decide_eq_false fun h => this ?_
        rw [h]
        rfl
      rw [answeredCtl_none noRelease]
    | some w =>
      have mem : w ∈ c.waiting := firstWaiting_mem hf
      have release := hc w mem (firstWaiting_owner hf)
      have ready : readyAtOnce w.cmd w.operands (s.setCtl c) = true := by rw [release]; exact hd
      have fewer : (answerOne ⟨.ok, c.record.bytes⟩ c w).waiting.length ≤ n := by
        have := List.length_erase_of_mem mem
        show (c.waiting.erase w).length ≤ n
        omega
      dsimp only
      rw [if_pos ready, serveWaiting_release release, State.setCtl_setCtl]
      exact (ih (c := answerOne ⟨.ok, c.record.bytes⟩ c w) fewer fun v hv => hc v (List.mem_of_mem_erase hv)).trans
        (congrArg s.setCtl (answeredCtl_answerOne mem (decide_eq_true release) _))

/-! ### A load completes -/

/-- The panel at the completion of the start-up load (R155). -/
theorem panelAfterStartUp_eq {s : State} (hd : startUpDone s = true) : panelAfterStartUp s = s.setDse (
    if s.dse.panelOn = true then s.dse
    else if s.pwu.power = .run then panelCameOn 100 s
    else if s.pwu.power = .dim then panelCameOn 500 s
    else s.dse) := by
  unfold panelAfterStartUp
  cases hon : s.dse.panelOn with
  | true =>
    rw [panelTurnOn_on hon, ite_self]
    rfl
  | false =>
    rw [panelTurnOn_cameOn hon hd]
    cases hp : s.pwu.power <;> rfl

/-- The part as the start-up load completes: the reset cause record, the RELEASEs answered, and the panel (R180, R181,
R189). -/
def startedUp (l : Load) (v : Validity) (s : State) : State :=
  { s with
    ctl := answeredCtl (fun w => w.cmd = .release)
      ⟨.ok, [BitVec.ofNat 8 (causeCode s.ctl.record.cause), BitVec.ofNat 8 (resultCode v)]
        ++ beBytes 2 l.loaded ++ beBytes 2 l.skipped⟩
      { s.ctl with record := ⟨s.ctl.record.cause, v, l.loaded, l.skipped⟩ }
    dse :=
      if s.dse.panelOn = true then s.dse
      else if s.pwu.power = .run then panelCameOn 100 s
      else if s.pwu.power = .dim then panelCameOn 500 s
      else s.dse }

theorem startUpCompleted_eq {s : State} (l : Load) (v : Validity) (out : LastOutcome) (hw : OnlyReleasesWait s) :
    startUpCompleted (completeOp out (setResetRecord v l.loaded l.skipped s)) = completeOp out (startedUp l v s) := by
  have answered := advance_releases (s := completeOp out s) rfl s.ctl.waiting.length
    (c := { s.ctl with record := ⟨s.ctl.record.cause, v, l.loaded, l.skipped⟩ }) (Nat.le_refl _) hw
  have advanced : advanceAll .ctl (completeOp out (setResetRecord v l.loaded l.skipped s)) = _ := answered
  rw [startUpCompleted, advanced, panelAfterStartUp_eq rfl, resetRecord_bytes]
  rfl

theorem startedUp_deferredLaw {s : State} (l : Load) (v : Validity) (hd : DeferredLaw s) : DeferredLaw (startedUp l v s) := by
  intro h
  obtain ⟨power, op, off⟩ := hd h
  refine ⟨power, op, ?_⟩
  simp [startedUp, power, off]

/-- The load has completed with this progress and result (R187, R189, R192). -/
theorem completeLoad_eq {l : Load} {s : State} (v : Validity) (hd : DeferredLaw s) (hw : l.scope = .startUp → OnlyReleasesWait s) :
    completeLoad l v s = loadCompleted l v s := by
  unfold completeLoad loadCompleted
  cases hs : l.scope with
  | startUp =>
    dsimp only
    rw [startUpCompleted_eq l v _ (hw hs), takeDeferred_completeOp (startedUp_deferredLaw l v hd)]
    rfl
  | seeds => exact takeDeferred_completeOp hd _
  | all => exact takeDeferred_completeOp hd _

/-- The seeds come next, or the load completes (R189). -/
theorem seedsNext_eq {l : Load} {s : State}
    (h : s.pim.flash.seedCount ≤ l.next → DeferredLaw s ∧ (l.scope = .startUp → OnlyReleasesWait s)) :
    seedsNext l s = seedsGoOn { l with stage := .seeding } s := by
  by_cases hn : l.next < s.pim.flash.seedCount
  · exact (if_pos hn).trans (if_pos hn).symm
  · obtain ⟨hd, hw⟩ := h (Nat.not_lt.1 hn)
    exact (if_neg hn).trans ((completeLoad_eq .valid hd hw).trans (if_neg hn).symm)

/-! ### The judgement of an image -/

theorem readAll_append (m : Flash) (a n k : Nat) : m.readAll a (n + k) = m.readAll a n ++ m.readAll (a + n) k := by
  simp [Flash.readAll, List.range_add, Nat.add_assoc]

theorem passes_iff (m : Flash) : m.passes = true ↔ m.readAll 0 2 = [0x4E, 0x57] ∧ m.readAll 2 2 = [0xB1, 0xA8] ∧ m.read 4 = 1
    ∧ beNat (m.readAll 5 2) ≤ 256 ∧ beNat (m.readAll 7 2) = 128
    ∧ ((m.readAll 0 (16 + 128 + 32 * beNat (m.readAll 5 2))).map BitVec.toNat).sum % 256 = 0 := by
  have sum (bs : List Byte) : byteSum bs = 0 ↔ (bs.map BitVec.toNat).sum % 256 = 0 := by
    rw [← BitVec.toNat_inj, byteSum, byteSum_toNat]
    simp
  have sign : m.readAll 0 4 = signature ↔ m.readAll 0 2 = [0x4E, 0x57] ∧ m.readAll 2 2 = [0xB1, 0xA8] := by
    have halves : m.readAll 0 4 = m.readAll 0 2 ++ m.readAll 2 2 := readAll_append m 0 2 2
    rw [halves]
    exact ⟨fun h => List.append_inj h rfl, fun ⟨low, high⟩ => by rw [low, high]; rfl⟩
  unfold Flash.passes Flash.seedCount imageLength
  simp only [Bool.and_eq_true, beq_iff_eq, decide_eq_true_eq, sum, sign, and_assoc]

theorem judge_eq (m : Flash) : m.judge =
    if m.readAll 0 4 = [0xFF, 0xFF, 0xFF, 0xFF] then .blank
    else if m.readAll 0 2 = [0x4E, 0x57] ∧ m.readAll 2 2 = [0xB1, 0xA8] ∧ m.read 4 = 1
        ∧ beNat (m.readAll 5 2) ≤ 256 ∧ beNat (m.readAll 7 2) = 128
        ∧ ((m.readAll 0 (16 + 128 + 32 * beNat (m.readAll 5 2))).map BitVec.toNat).sum % 256 = 0 then .valid
    else .corrupt := by
  unfold Flash.judge
  simp only [passes_iff]

theorem load_some {l : Load} {s : State} (h : s.pim.op = .load l) : s.load = some l := by
  rw [State.load, h]

/-- Settles O42: the judgement by `judge_eq`, a completion by `completeLoad_eq`. -/
theorem imageIsJudged : Obligations.ImageIsJudged := by
  refine ⟨judge_eq, fun s l ⟨running, hop⟩ hst => ?_⟩
  refine ⟨fun hv hs => ?_, fun hv hs hn => ?_, fun hv hs hn hd => ?_, fun hv hd hw => ?_⟩
  all_goals refine (live_next running).trans (congrArg (fun t => Host.Outcome.next (settle t)) ?_)
  all_goals
    unfold imageJudged
    rw [load_some hop]
    dsimp only
    rw [if_pos hst]
  · rw [hv, if_neg (by simp), if_neg hs]
    rfl
  · rw [hv, if_neg (by simp), if_pos hs, seedsNext, if_pos hn]
    rfl
  · rw [hv, if_neg (by simp), if_pos hs, seedsNext, if_neg (Nat.not_lt.2 hn)]
    exact completeLoad_eq .valid hd fun h => by rw [hs] at h; cases h
  · rw [if_pos hv]
    exact completeLoad_eq _ hd hw

end Sys2Proof.Machine
end

section
/-! PROOF. The hold key (R101, R155, R160, R161, R164, R166) and the events of the panel (R147, R148, R151, R154, R156, R199). -/

namespace Sys2Proof.Machine

/-! ### The debounced level -/

theorem keyInput_eq (low : Bool) (p : Pwu) : p.keyInput low = { p with
    keyLow := low
    keyCandidate := if low = p.keyPressed then none else some (p.keyCandidate.getD ⟨low, false⟩) } := by
  unfold Pwu.keyInput
  cases p.keyCandidate <;> rfl

/-- The part once its candidate has become the debounced level. -/
def keyMoved (c : KeyCandidate) (s : State) : State :=
  s.setPwu { s.pwu with keyPressed := c.pressed, keyCandidate := none }

theorem debounce_none {s : State} (h : s.pwu.keyCandidate = none) : debounce s = s := by
  rw [debounce, h]

theorem debounce_quiet {s : State} {c : KeyCandidate} (h : s.pwu.keyCandidate = some c) (hc : c.pressed = false ∨ c.fromReset = true) :
    debounce s = keyMoved c s := by
  rw [debounce, h]
  refine if_neg ?_
  rcases hc with hc | hc <;> simp [hc]

theorem debounce_press {s : State} (h : s.pwu.keyCandidate = some ⟨true, false⟩) :
    debounce s = keyPress (keyMoved ⟨true, false⟩ s) := by
  rw [debounce, h]
  rfl

/-! ### A press -/

/-- A press out of SLEEP before its activity event: hold toggled and HOLD raised (R101, R161). -/
def toggled (s : State) : State :=
  { s with
    rte := { s.rte with
      hold := !s.rte.hold
      table := if s.rte.hold then s.rte.table.map fun r => { r with held := none } else s.rte.table }
    dse := { s.dse with rows := Vector.ofFn fun i => { s.dse.rows[i] with rebound := false } }
    wta := { s.wta with causes := s.wta.causes ||| 0x100 } }

theorem raise_setHold (s : State) : raise .hold (setHold (!s.rte.hold) s) = toggled s := by
  have apart : s.rte.hold ≠ !s.rte.hold := Bool.self_ne_not _
  have table : (if (!s.rte.hold) = true then s.rte.table else s.rte.table.map fun r => { r with held := none })
      = if s.rte.hold then s.rte.table.map fun r => { r with held := none } else s.rte.table := by
    cases s.rte.hold <;> rfl
  rw [setHold_changed apart, table, raise_eq]
  unfold toggled
  simp only [State.setRte, State.setDse, State.setWta]
  rfl

theorem keyPress_awake {s : State} (h : s.pwu.power ≠ .sleep) : keyPress s = activityIf s.pwu.keyActivity (toggled s) := by
  rw [keyPress, if_neg h, pressEvent, raise_setHold]

section
variable {s : State}

theorem activity_run (ho : s.pwu.op = .none) (hp : s.pwu.power = .run) : activity s = s.setPwu (ran s.pwu) := by
  rw [activity, if_neg (by rw [ho]; nofun), hp]
  rfl

theorem activity_dim (ho : s.pwu.op = .none) (hp : s.pwu.power = .dim) : activity s = (s.setPwu (ran s.pwu)).setDse
    { s.dse with refreshTimer := if s.dse.panelOn then some 100 else s.dse.refreshTimer } := by
  rw [activity, if_neg (by rw [ho]; nofun), hp]
  exact refreshTimerMoves_eq .run _

/-- The panel that is OFF at an activity event in DARK (R155). -/
theorem panelTurnOn_toRun (hoff : s.dse.panelOn = false) (hp : s.pwu.power = .run) :
    panelTurnOn s = s.setDse (if startUpDone s then panelCameOn 100 s else s.dse) := by
  cases hd : startUpDone s with
  | true =>
    rw [panelTurnOn_cameOn hoff hd, hp]
    rfl
  | false => exact panelTurnOn_early hd

theorem restartEnabled_eq (s : State) : restartEnabled s = s.setLanes (Vector.ofFn fun i =>
    if (s.lanes[i]).enabled then (s.lanes[i]).restart .marking s.pfe.levels else s.lanes[i]) :=
  congrArg s.setLanes (Vector.ext fun k hk => by simp [mapAll])

theorem activity_dark (hp : s.pwu.power = .dark) (hoff : s.dse.panelOn = false) :
    activity s = { s with
      pwu := ran s.pwu
      lanes := if s.pwu.op = .sleepEntry then Vector.ofFn (fun i =>
          if (s.lanes[i]).enabled then (s.lanes[i]).restart .marking s.pfe.levels else s.lanes[i])
        else s.lanes
      dse := if startUpDone s then panelCameOn 100 s else s.dse } := by
  rw [activity]
  by_cases he : s.pwu.op = .sleepEntry
  · rw [if_pos he, if_pos he, abortSleepEntry, if_pos he, restartEnabled_eq]
    exact panelTurnOn_toRun (s := (s.setPwu s.pwu.toRun).setLanes _) hoff rfl
  · rw [if_neg he, if_neg he, hp]
    exact panelTurnOn_toRun (s := s.setPwu s.pwu.toRun) hoff rfl

end

/-- Settles O47: the input and the debounced level, then a press by the power state. -/
theorem holdKeyIsDebounced : Obligations.HoldKeyIsDebounced := by
  intro s running
  refine ⟨fun low => ?_, fun h => ?_, fun c h hc => ?_, fun pressed h hp hpressed => ?_, fun h hp => ?_⟩
  · refine (liveInput_next running).trans (congrArg (fun t => Host.Outcome.next (settle t)) ?_)
    rw [holdkeyChanges, keyInput_eq]
    rfl
  · exact (live_next running).trans (congrArg (fun t => Host.Outcome.next (settle t)) (debounce_none h))
  · exact (live_next running).trans (congrArg (fun t => Host.Outcome.next (settle t)) (debounce_quiet h hc))
  · have press : debounce s = activityIf s.pwu.keyActivity pressed := by
      rw [debounce_press h, keyPress_awake (by exact hp), hpressed]
      rfl
    have kept : pressed.pwu.op = s.pwu.op ∧ pressed.pwu.power = s.pwu.power ∧ pressed.dse.panelOn = s.dse.panelOn
        ∧ pressed.lanes = s.lanes ∧ pressed.pfe = s.pfe ∧ startUpDone pressed = startUpDone s
        ∧ pressed.dse.refreshTimer = s.dse.refreshTimer := by
      rw [hpressed]
      exact ⟨rfl, rfl, rfl, rfl, rfl, rfl, rfl⟩
    obtain ⟨op, power, panel, lanes, pfe, done, timer⟩ := kept
    refine ⟨fun hk => ?_, fun hk ho hrun => ?_, fun hk ho hdim => ?_, fun hk _ hdark hoff => ?_⟩
    all_goals refine (live_next running).trans (congrArg (fun t => Host.Outcome.next (settle t)) ?_)
    all_goals rw [press, hk]
    · rfl
    · exact activity_run (op.trans ho) (power.trans hrun)
    · rw [← panel, ← timer]
      exact activity_dim (op.trans ho) (power.trans hdim)
    · rw [← op, ← lanes, ← pfe, ← done]
      exact activity_dark (power.trans hdark) (panel.trans hoff)
  · refine (live_next running).trans (congrArg (fun t => Host.Outcome.next (settle t)) ?_)
    rw [debounce_press h, keyPress, if_pos (by exact hp), wakeEvent_sleep (by exact hp)]
    cases hw : s.pwu.holdkeyWake with
    | true => exact if_pos hw
    | false => exact if_neg (by rw [← Bool.not_eq_true] at hw; exact hw)

/-! ### The panel's events -/

theorem refreshAfterLine_eq (rest : List PanelMessage) (r : Option Refresh) : refreshAfterLine rest r = match r with
    | some rf => if rf.phase = .sending ∧ (∀ m ∈ rest, m.isLine = false) then none else some rf
    | none => none := by
  cases r with
  | none => rfl
  | some rf => simp [refreshAfterLine]

theorem refreshExpiry_idle {s : State} (h : s.dse.refreshTimer = none ∨ s.dse.refresh ≠ none) : refreshExpiry s = s := by
  unfold refreshExpiry
  split
  · next ht hr =>
    rcases h with h | h
    · rw [h] at ht
      cases ht
    · exact absurd hr h
  · rfl

/-- Settles O48: the refresh timer, the messages of the port, and the backlight. -/
theorem panelEvents : Obligations.PanelEvents := by
  intro s running
  refine ⟨fun n ht hr => ?_, fun h => ?_, fun n text rest hp => ?_, fun rest hp => ?_, fun m rest t hp ht => ?_,
    fun hon hrun => ?_, fun hon hdim => ?_, fun h => ?_⟩
  · refine (live_next running).trans (congrArg (fun t => Host.Outcome.next (settle t)) ?_)
    rw [refreshExpiry, ht, hr]
    exact congrArg (fun r => s.setDse { s.dse with refresh := some r }) (newRefresh_eq false s)
  · exact (live_next running).trans (congrArg (fun t => Host.Outcome.next (settle t)) (refreshExpiry_idle h))
  · refine (live_next running).trans (congrArg (fun t => Host.Outcome.next (settle t)) ?_)
    rw [lineSent, hp]
    dsimp only
    rw [refreshAfterLine_eq]
    rfl
  · refine (live_next running).trans (congrArg (fun t => Host.Outcome.next (settle t)) ?_)
    rcases hp with hp | hp <;> rw [panelMessageSent, hp] <;> rfl
  · rw [State.portBytes, hp, ht]
    cases m <;> rfl
  · simp [State.backlight, hon, hrun]
  · simp [State.backlight, hon, hdim]
  · rcases h with h | h | h <;> simp [State.backlight, h]

end Sys2Proof.Machine
end

section
/-! PROOF. The glitch filters and the wake comparators see the raw levels (R3 to R6, R8, R13, R14). -/

namespace Sys2Proof.Machine

/-! ### The wake comparators at one moment -/

/-- A wake comparator that has seen the raw level (R14). -/
def WakeComparator.seen (width : Nat) (raw : Bool) (w : WakeComparator) : WakeComparator :=
  if raw = w.ref then ⟨w.ref, none⟩
  else if w.candidate.isSome then w
  else if width = 0 then ⟨raw, none⟩
  else ⟨w.ref, some ⟨raw, width⟩⟩

/-- The raw level moves the reference at once (R14). -/
def WakeComparator.moves (width : Nat) (raw : Bool) (w : WakeComparator) : Bool :=
  width = 0 && (w.candidate.isNone && raw != w.ref)

theorem WakeComparator.filtered_eq (width : Nat) (raw : Bool) (w : WakeComparator) :
    w.filtered width raw = (w.seen width raw, if w.moves width raw then some raw else none) := by
  obtain ⟨ref, candidate⟩ := w
  unfold WakeComparator.filtered filter WakeComparator.seen WakeComparator.moves
  cases candidate with
  | none =>
    by_cases hr : raw = ref
    · simp [hr]
    · by_cases hw : width = 0 <;> simp [hr, hw]
  | some c => by_cases hr : raw = ref <;> simp [hr]

/-- What a comparator has seen it does not see again. -/
theorem WakeComparator.seen_seen (width : Nat) (raw : Bool) (w : WakeComparator) :
    (w.seen width raw).seen width raw = w.seen width raw ∧ (w.seen width raw).moves width raw = false := by
  obtain ⟨ref, candidate⟩ := w
  unfold WakeComparator.seen WakeComparator.moves
  by_cases hr : raw = ref
  · simp [hr]
  · cases candidate with
    | some c => simp [hr]
    | none => by_cases hw : width = 0 <;> simp [hr, hw]

/-- Probe `i` has a wake-side edge at once in the configured direction, its comparator being one of those that see their raw
level (R14, R166). -/
def wakeReports (which : Fin 16 → Bool) (s : State) (i : Fin 16) : Bool :=
  which i && (s.pfe.probes[i]).wake.any fun w =>
    w.moves (s.pfe.bank i).width (s.pfe.raw i) && (s.pwu.wakeEdges[i]).matches (s.pfe.raw i)

/-- In SLEEP, the part after the wake comparators of some probes have seen their raw levels (R14, R166). -/
structure WakeSeen (which : Fin 16 → Bool) (s t : State) : Prop where
  rest : t = { s with pfe := t.pfe, pwu := t.pwu }
  pfe : t.pfe = { s.pfe with probes := t.pfe.probes }
  probes : ∀ i : Fin 16, t.pfe.probes[i] = if which i then
      { s.pfe.probes[i] with wake := (s.pfe.probes[i]).wake.map (WakeComparator.seen (s.pfe.bank i).width (s.pfe.raw i)) }
    else s.pfe.probes[i]
  pwu : t.pwu = { s.pwu with
    op := if ∃ i, wakeReports which s i = true then .wake else s.pwu.op
    wakePending := { s.pwu.wakePending with probes := t.pwu.wakePending.probes } }
  pending : ∀ i : Fin 16, t.pwu.wakePending.probes.getLsbD i = (s.pwu.wakePending.probes.getLsbD i || wakeReports which s i)

section
variable {which : Fin 16 → Bool} {s t : State} (h : WakeSeen which s t)
include h

theorem WakeSeen.pins : t.pfe.pins = s.pfe.pins := by rw [h.pfe]

theorem WakeSeen.banks : t.pfe.banks = s.pfe.banks := by rw [h.pfe]

theorem WakeSeen.bank (i : Fin 16) : t.pfe.bank i = s.pfe.bank i ∧ t.pfe.raw i = s.pfe.raw i := by
  rw [h.pfe]
  exact ⟨rfl, rfl⟩

theorem WakeSeen.op : t.pwu.op = if ∃ i, wakeReports which s i = true then .wake else s.pwu.op := by rw [h.pwu]

theorem WakeSeen.power : t.pwu.power = s.pwu.power := by rw [h.pwu]

theorem WakeSeen.wakeEdges : t.pwu.wakeEdges = s.pwu.wakeEdges := by rw [h.pwu]

theorem WakeSeen.lanes : t.lanes = s.lanes := by rw [h.rest]

theorem WakeSeen.rte : t.rte = s.rte := by rw [h.rest]

theorem WakeSeen.table : t.rte.table = s.rte.table := congrArg Rte.table h.rte

theorem WakeSeen.wta : t.wta = s.wta := by rw [h.rest]

theorem WakeSeen.dse : t.dse = s.dse := by rw [h.rest]

theorem WakeSeen.ctl : t.ctl = s.ctl := by rw [h.rest]

theorem WakeSeen.pim : t.pim = s.pim := by rw [h.rest]

end

theorem wakeReports_spelled (which : Fin 16 → Bool) (s : State) (i : Fin 16) : wakeReports which s i =
    (which i && (s.pfe.bank i).width = 0 && (s.pfe.probes[i]).wake.any fun w =>
      w.candidate.isNone && s.pfe.raw i != w.ref && (s.pwu.wakeEdges[i]).matches (s.pfe.raw i)) := by
  unfold wakeReports WakeComparator.moves
  cases (s.pfe.probes[i]).wake with
  | none => simp
  | some w => simp [Bool.and_assoc]

theorem WakeSeen.refl (s : State) : WakeSeen (fun _ => false) s s where
  rest := rfl
  pfe := rfl
  probes := fun _ => rfl
  pwu := by
    have none : ¬ ∃ i, wakeReports (fun _ => false) s i = true := fun ⟨_, h⟩ => nomatch h
    rw [if_neg none]
  pending := fun i => by simp [wakeReports]

theorem WakeSeen.of_eq {a b : Fin 16 → Bool} {s t : State} (h : WakeSeen a s t) (hab : ∀ i, a i = b i) : WakeSeen b s t :=
  funext hab ▸ h

theorem WakeSeen.reports {a b : Fin 16 → Bool} {s t : State} (h : WakeSeen a s t) (i : Fin 16) :
    wakeReports (fun i => a i || b i) s i = (wakeReports a s i || wakeReports b t i) := by
  obtain ⟨bank, raw⟩ := h.bank i
  unfold wakeReports
  rw [bank, raw, h.wakeEdges, h.probes i]
  cases ha : a i with
  | false => simp [ha]
  | true =>
    cases hw : (s.pfe.probes[i]).wake with
    | none => simp [ha]
    | some w => simp [ha, (w.seen_seen _ _).2]

theorem WakeSeen.trans {a b : Fin 16 → Bool} {s t u : State} (h : WakeSeen a s t) (g : WakeSeen b t u) :
    WakeSeen (fun i => a i || b i) s u where
  rest := by rw [g.rest, h.rest]
  pfe := by rw [g.pfe, h.pfe]
  probes := fun i => by
    obtain ⟨bank, raw⟩ := h.bank i
    rw [g.probes i, bank, raw, h.probes i]
    cases a i <;> cases b i
    all_goals simp
    cases (s.pfe.probes[i]).wake with
    | none => rfl
    | some w => simp [(w.seen_seen _ _).1]
  pwu := by
    have either : (∃ i, wakeReports (fun i => a i || b i) s i = true)
        ↔ (∃ i, wakeReports a s i = true) ∨ ∃ i, wakeReports b t i = true := by
      simp only [h.reports, Bool.or_eq_true, exists_or]
    rw [g.pwu, h.pwu]
    by_cases ha : ∃ i, wakeReports a s i = true <;> by_cases hb : ∃ i, wakeReports b t i = true <;>
      simp only [either, ha, hb, if_true, if_false, or_true, or_false]
  pending := fun i => by rw [g.pending, h.pending, h.reports, Bool.or_assoc]

/-- The PWU after a wake-side edge of probe `p`, where `hit` says that its direction is the configured one (R166). -/
def wakeHit (p : Fin 16) (hit : Bool) (w : Pwu) : Pwu :=
  if hit then { w with op := .wake, wakePending := { w.wakePending with probes := w.wakePending.probes ||| (1 <<< p.val) } }
  else w

theorem oneBit_getLsbD : ∀ p i : Fin 16, ((1 <<< p.val : Nat) : BitVec 16).getLsbD i = decide (i = p) := by decide +kernel

theorem wakeHit_pending (p : Fin 16) (hit : Bool) (w : Pwu) (i : Fin 16) :
    (wakeHit p hit w).wakePending.probes.getLsbD i = (w.wakePending.probes.getLsbD i || hit && decide (i = p)) := by
  cases hit with
  | false => exact (Bool.or_false _).symm
  | true =>
    show (w.wakePending.probes ||| (1 <<< p.val)).getLsbD i = _
    rw [BitVec.getLsbD_or, Bool.true_and]
    exact congrArg (w.wakePending.probes.getLsbD i || ·) (oneBit_getLsbD p i)

theorem wakeEdgeAt_eq {s : State} (hp : s.pwu.power = .sleep) (p : Fin 16) (level : Bool) :
    wakeEdgeAt p level s = s.setPwu (wakeHit p ((s.pwu.wakeEdges[p]).matches level) s.pwu) := by
  unfold wakeEdgeAt wakeHit
  rw [wakeEvent_sleep hp]
  cases (s.pwu.wakeEdges[p]).matches level <;> rfl

theorem wakeFilterAt_eq {s : State} (hp : s.pwu.power = .sleep) (p : Fin 16) : wakeFilterAt s p =
    (s.setPfe { s.pfe with probes := modifyAt s.pfe.probes p fun x =>
      { x with wake := x.wake.map (WakeComparator.seen (s.pfe.bank p).width (s.pfe.raw p)) } }).setPwu
      (wakeHit p (wakeReports (fun i => i = p) s p) s.pwu) := by
  have seen (o : Option WakeComparator) (h : (s.pfe.probes[p]).wake.map (WakeComparator.seen (s.pfe.bank p).width (s.pfe.raw p)) = o) :
      modifyAt s.pfe.probes p (fun x =>
        { x with wake := x.wake.map (WakeComparator.seen (s.pfe.bank p).width (s.pfe.raw p)) })
      = modifyAt s.pfe.probes p fun x => { x with wake := o } := by
    rw [modifyAt, h, modifyAt]
  unfold wakeFilterAt
  cases hw : (s.pfe.probes[p]).wake with
  | none =>
    have quiet : wakeReports (fun i => i = p) s p = false := by rw [wakeReports, hw]; exact Bool.and_false _
    have same : modifyAt s.pfe.probes p (fun x => { x with wake := none }) = s.pfe.probes :=
      Vector.ext fun k hk => by
        have get := modifyAt_get s.pfe.probes p ⟨k, hk⟩ fun x => { x with wake := none }
        refine get.trans ?_
        split
        · next h => subst h; rw [← hw]; rfl
        · rfl
    rw [quiet, seen none (by rw [hw]; rfl), same]
    rfl
  | some w =>
    have hit : wakeReports (fun i => i = p) s p
        = (w.moves (s.pfe.bank p).width (s.pfe.raw p) && (s.pwu.wakeEdges[p]).matches (s.pfe.raw p)) := by
      rw [wakeReports, hw, decide_eq_true rfl]
      rfl
    rw [hit, seen (some (w.seen (s.pfe.bank p).width (s.pfe.raw p))) (by rw [hw]; rfl)]
    dsimp only
    rw [WakeComparator.filtered_eq]
    cases w.moves (s.pfe.bank p).width (s.pfe.raw p) with
    | false => rfl
    | true =>
      show wakeEdgeAt p (s.pfe.raw p) _ = _
      rw [wakeEdgeAt_eq (by exact hp)]
      rfl

theorem wakeFilterAt_seen {s : State} (hp : s.pwu.power = .sleep) (p : Fin 16) :
    WakeSeen (fun i => i = p) s (wakeFilterAt s p) := by
  have reports (i : Fin 16) : wakeReports (fun i => i = p) s i = (decide (i = p) && wakeReports (fun i => i = p) s p) := by
    by_cases h : i = p
    · simp [h]
    · simp [wakeReports, h]
  have any : (∃ i, wakeReports (fun i => i = p) s i = true) ↔ wakeReports (fun i => i = p) s p = true :=
    ⟨fun ⟨i, h⟩ => by rw [reports] at h; exact (Bool.and_eq_true_iff.1 h).2, fun h => ⟨p, h⟩⟩
  rw [wakeFilterAt_eq hp]
  refine ⟨rfl, rfl, fun i => ?_, ?_, fun i => ?_⟩
  · show (modifyAt s.pfe.probes p _)[i] = _
    rw [modifyAt_get]
    by_cases h : i = p
    · simp [h]
    · simp [h, Ne.symm h]
  · simp only [any]
    show wakeHit p _ s.pwu = _
    cases wakeReports (fun i => i = p) s p <;> rfl
  · show (wakeHit p _ s.pwu).wakePending.probes.getLsbD i = _
    rw [wakeHit_pending, reports i, Bool.and_comm]

theorem wakeFilters_seen {s : State} (hp : s.pwu.power = .sleep) (ps : List (Fin 16)) :
    WakeSeen (fun i => i ∈ ps) s (wakeFilters ps s) := by
  suffices walk : ∀ t : State, ∀ which, WakeSeen which s t → WakeSeen (fun i => which i || i ∈ ps) s (ps.foldl wakeFilterAt t) by
    exact (walk s _ (.refl s)).of_eq fun i => Bool.false_or _
  induction ps with
  | nil => exact fun t which h => h.of_eq fun i => by simp
  | cons p ps ih =>
    intro t which h
    have awake : t.pwu.power = .sleep := by rw [h.pwu]; exact hp
    exact (ih _ _ (h.trans (wakeFilterAt_seen awake p))).of_eq fun i => by
      simp [Bool.or_assoc]

/-! ### The filters at one moment -/

/-- A probe that has seen its raw level (R3, R4, R5, R8). -/
def Probe.seen (width : Nat) (raw : Bool) (p : Probe) : Probe :=
  match p.candidate with
  | some _ => if raw = p.level then { p with candidate := none, glitch := true, clearNote := false } else p
  | none =>
    if raw = p.level then p
    else if width = 0 then { p with level := raw, edgesNow := min 65535 (p.edgesNow + 1), candidate := none }
    else { p with candidate := some ⟨raw, width⟩ }

theorem Probe.filtered_eq (width : Nat) (raw : Bool) (p : Probe) : p.filtered width raw = p.seen width raw := by
  unfold Probe.filtered filter Probe.seen
  cases p.candidate with
  | some c => by_cases h : raw = p.level <;> simp only [h, if_true, if_false, Probe.reject]
  | none =>
    by_cases h : raw = p.level
    · simp only [h, if_true]
    · by_cases hw : width = 0 <;> simp only [h, hw, if_true, if_false, Probe.edge, countUp]

theorem matches_eq (e : WakeEdge) (level : Bool) : e.matches level = match e with
    | .none => false
    | .rising => level
    | .falling => !level
    | .either => true := by
  cases e <;> rfl

theorem movedPins (cs : List PinChange) (i : Fin 16) :
    decide (i ∈ cs.map (·.probe)) = cs.any (fun c => c.probe = i) := by
  rw [Bool.eq_iff_iff]
  simp

/-- A probe after candidates have been qualified, pins have moved and the filters have judged (R3, R5; log 26). -/
theorem Pfe.changed_get (x : Pfe) (due : List (Fin 16)) (cs : List PinChange) (i : Fin 16) :
    (((x.qualify due).withPins cs).filterWhere fun i => i ∈ cs.map (·.probe)).probes[i]
      = if cs.any (fun c => c.probe = i) then
          ((x.qualify due).probes[i]).seen (x.bank i).width ((x.withPins cs).raw i)
        else (x.qualify due).probes[i] := by
  have bank : ((x.qualify due).withPins cs).bank i = x.bank i := rfl
  have raw : ((x.qualify due).withPins cs).raw i = (x.withPins cs).raw i := rfl
  have probes : ((x.qualify due).withPins cs).probes = (x.qualify due).probes := rfl
  rw [Pfe.filterWhere_get, movedPins, bank, raw, probes, Probe.filtered_eq]

theorem rawLevelChange_sleep {s : State} (hp : s.pwu.power = .sleep) (cs : List PinChange) (due : List (Fin 16)) :
    rawLevelChange cs due s = wakeFilters (cs.map (·.probe)) (s.setPfe (s.pfe.withPins cs)) := if_pos hp

theorem rawLevelChange_awake {s : State} (hp : s.pwu.power ≠ .sleep) (cs : List PinChange) (due : List (Fin 16)) :
    rawLevelChange cs due s
      = movePfe (((s.pfe.qualify due).withPins cs).filterWhere fun i => i ∈ cs.map (·.probe)) s := if_neg hp

theorem Pfe.qualify_pins (ps : List (Fin 16)) (x : Pfe) : (x.qualify ps).pins = x.pins := by
  unfold Pfe.qualify
  rfl

theorem qualify_due {s : State} (hp : s.pwu.power ≠ .sleep) (due : List (Fin 16)) :
    qualify ⟨due, false⟩ s = movePfe (s.pfe.qualify due) s := if_neg hp

/-- The lanes after a move of the Probe Front End out of SLEEP (R6, R36). -/
theorem movePfe_lanes_awake {s : State} (hp : s.pwu.power ≠ .sleep) (x : Pfe) (i : Fin 4) : (movePfe x s).lanes[i]
    = if s.pwu.op = .sleepEntry then s.lanes[i] else (laneChange i s.pfe.levels x.levels s.lanes[i]).lane := by
  by_cases ho : s.pwu.op = .sleepEntry
  · have stopped : lanesStopped (s.setPfe x) = true := by simp [lanesStopped, ho]
    rw [if_pos ho, movePfe, offer_stopped stopped]
    rfl
  · rw [if_neg ho]
    exact movePfe_lanes ho hp i

/-- Out of SLEEP, a row that moves the Probe Front End: what it leaves, the lanes reading the move as one (R6, R36). -/
theorem moved_next {s : State} (hp : s.pwu.power ≠ .sleep) {x : Pfe} {out : Result}
    (row : out = .next (settle (movePfe x s))) : ∃ t, out = .next t ∧ t.pfe = x
      ∧ (∀ i : Fin 4, t.lanes[i] = if s.pwu.op = .sleepEntry then s.lanes[i]
        else (laneChange i s.pfe.levels t.pfe.levels s.lanes[i]).lane)
      ∧ t.rte.table = s.rte.table ∧ t.wta.slots = s.wta.slots ∧ t.ctl = s.ctl ∧ t.pim = s.pim ∧ t.dse.rows = s.dse.rows := by
  have moved := offered_movePfe x s
  refine ⟨_, row, moved.pfe, fun i => ?_, moved.table, moved.slots, moved.ctl, moved.pim, moved.rows⟩
  rw [settle_pfe, moved.pfe]
  exact movePfe_lanes_awake hp x i

/-- Settles O49: in SLEEP by `wakeFilters_seen`, out of it by `moved_next`. -/
theorem probesAreFiltered : Obligations.ProbesAreFiltered := by
  refine ⟨fun s cs due x reports running hp hx hr => ⟨?_, fun e => ?_⟩, fun s due qualified running hp => ⟨?_, fun hq => ⟨?_, ?_⟩⟩⟩
  · subst hx
    have reported : wakeReports (fun i => i ∈ cs.map (·.probe)) (s.setPfe (s.pfe.withPins cs)) = reports := by
      rw [hr]
      funext i
      refine (wakeReports_spelled _ _ i).trans ?_
      simp only [movedPins, matches_eq]
      rfl
    have row := (liveInput_next (g := pinsHeld cs) running).trans
      (congrArg (fun t => Host.Outcome.next (settle t)) (rawLevelChange_sleep hp cs due))
    have seen := wakeFilters_seen (s := s.setPfe (s.pfe.withPins cs)) hp (cs.map (·.probe))
    have op := seen.op
    rw [reported] at op
    refine ⟨_, row, seen.pins, seen.banks, fun i => ?_, fun i => ?_, op, seen.power.trans hp, seen.lanes, seen.table, seen.wta,
      seen.dse, seen.ctl, seen.pim⟩
    · refine (seen.probes i).trans ?_
      simp only [movedPins]
      cases cs.any fun c => decide (c.probe = i) with
      | false =>
        have same (o : Option WakeComparator) : o.map (fun w => w) = o := Option.map_id'
        simp only [Bool.false_eq_true, if_false, same]
        rfl
      | true => rfl
    · exact (seen.pending i).trans (by rw [reported]; rfl)
  · exact (live_next running).trans (congrArg (fun t => Host.Outcome.next (settle t)) (if_pos hp))
  · exact (live_next running).trans (congrArg (fun t => Host.Outcome.next (settle t)) (if_neg hp))
  · rintro cs x hx
    obtain ⟨t, row, pfe, lanes, rest⟩ := moved_next hp ((liveInput_next (g := pinsHeld cs) running).trans
      (congrArg (fun t => Host.Outcome.next (settle t)) (rawLevelChange_awake hp cs due)))
    refine ⟨t, row, by rw [pfe, hx]; rfl, by rw [pfe]; rfl, fun i => ?_, lanes, rest⟩
    have first : (s.pfe.qualify due).probes[i] = qualified i := by
      rw [hq, Pfe.qualify_get]
      exact qualified_spelled _ _
    have pins : s.pfe.withPins cs = x := hx.symm
    rw [pfe, Pfe.changed_get, first, pins]
    rfl
  · obtain ⟨t, row, pfe, lanes, rest⟩ := moved_next hp ((live_next (f := qualify ⟨due, false⟩) running).trans
      (congrArg (fun t => Host.Outcome.next (settle t)) (qualify_due hp due)))
    refine ⟨t, row, (congrArg Pfe.pins pfe).trans (Pfe.qualify_pins _ _),
      (congrArg Pfe.banks pfe).trans (Pfe.qualify_banks _ _), fun i => ?_, lanes, rest⟩
    rw [pfe, Pfe.qualify_get, hq]
    exact qualified_spelled _ _

end Sys2Proof.Machine
end

section
/-! PROOF. Sleep entry completes, the wake comparators report, and wake completes (R13, R14, R15, R163, R166, R167). -/

namespace Sys2Proof.Machine

/-! ### Sleep entry completes -/

theorem mem_probeNumbers (i : Fin 16) : i ∈ probeNumbers := by
  simp [probeNumbers]

/-- The part as it enters SLEEP, before its comparators judge their pins (R13, R163). -/
def asleep (s : State) : State :=
  { s with
    pwu := { s.pwu with power := .sleep, op := .none }
    rte := { s.rte with epochTimer := false }
    pfe := s.pfe.enterSleep s.pwu.wakeEdges }

theorem sleepEntryCompletion_eq {s : State} (ho : s.pwu.op = .sleepEntry) (hl : s.ctl.lselLow = false) (hs : s.rte.serving = none)
    (hw : ∀ p, unitWaits s p = false) : sleepEntryCompletion s = wakeFilters probeNumbers (asleep s) := by
  have idle : nextPosition s = none := List.find?_eq_none.2 fun p _ => by rw [hw p]; nofun
  exact if_pos (by simp [sleepEntryDone, ho, hl, hs, idle])

theorem asleep_probe (s : State) (i : Fin 16) :
    (asleep s).pfe.probes[i] = (s.pfe.probes[i]).enterSleep s.pwu.wakeEdges[i] := by
  simp [asleep, Pfe.enterSleep]

theorem enterSleep_wake (e : WakeEdge) (p : Probe) (width : Nat) (raw : Bool) :
    (p.enterSleep e).wake.map (WakeComparator.seen width raw) =
      if e = .none then none
      else if raw = p.level then some ⟨p.level, none⟩
      else if width = 0 then some ⟨raw, none⟩
      else some ⟨p.level, some ⟨raw, width⟩⟩ := by
  unfold Probe.enterSleep
  by_cases he : e = .none
  · simp [he]
  · by_cases hr : raw = p.level
    · simp [he, hr, WakeComparator.seen]
    · by_cases hw : width = 0 <;> simp [he, hr, hw, WakeComparator.seen]

theorem enterSleep_any (e : WakeEdge) (p : Probe) (raw : Bool) :
    (p.enterSleep e).wake.any (fun w => w.candidate.isNone && raw != w.ref && e.matches raw)
      = (raw != p.level && e.matches raw) := by
  unfold Probe.enterSleep
  cases e <;> simp [WakeEdge.matches]

theorem asleep_reports (s : State) (i : Fin 16) : wakeReports (fun i => i ∈ probeNumbers) (asleep s) i
    = (s.pfe.raw i != (s.pfe.probes[i]).level && (s.pfe.bank i).width = 0 && (s.pwu.wakeEdges[i]).matches (s.pfe.raw i)) := by
  rw [wakeReports_spelled, decide_eq_true (mem_probeNumbers i), asleep_probe, Bool.true_and]
  refine (congrArg (decide ((s.pfe.bank i).width = 0) && ·)
    (enterSleep_any s.pwu.wakeEdges[i] s.pfe.probes[i] (s.pfe.raw i))).trans ?_
  cases s.pfe.raw i != (s.pfe.probes[i]).level <;> simp

/-! ### A wake-side edge -/

theorem wakeSideEdge_eq {s : State} {i : Fin 16} {ref : Bool} {c : Candidate} (hp : s.pwu.power = .sleep)
    (hw : (s.pfe.probes[i]).wake = some ⟨ref, some c⟩) : wakeSideEdge i s =
      { s with
        pfe := { s.pfe with probes := s.pfe.probes.set i { s.pfe.probes[i] with wake := some ⟨c.level, none⟩ } }
        pwu := wakeHit i ((s.pwu.wakeEdges[i]).matches c.level) s.pwu } := by
  rw [wakeSideEdge, if_pos hp, hw]
  dsimp only
  rw [wakeEdgeAt_eq (by exact hp)]
  rfl

/-! ### Wake completes -/

/-- The part as wake completes, before the commands taken during it (R15, R167). -/
def wokenUp (s : State) : State :=
  { s with
    pwu := ran s.pwu
    pfe := s.pfe.wakeUp
    rte := { s.rte with epochTimer := true }
    lanes := Vector.ofFn fun i =>
      if (s.lanes[i]).enabled then (s.lanes[i]).restart .marking s.pfe.wakeUp.levels else s.lanes[i]
    wta := { s.wta with causes := s.wta.causes ||| 0x080 }
    dse := panelCameOn 100 s }

/-- Wake as it completes, but for the panel. -/
def wokenDark (s : State) : State :=
  { s with
    pwu := ran s.pwu
    pfe := s.pfe.wakeUp
    rte := { s.rte with epochTimer := true }
    lanes := Vector.ofFn fun i =>
      if (s.lanes[i]).enabled then (s.lanes[i]).restart .marking s.pfe.wakeUp.levels else s.lanes[i]
    wta := { s.wta with causes := s.wta.causes ||| 0x080 } }

theorem wakeSteps_wokenDark (s : State) : wakeSteps s = panelTurnOn (wokenDark s) := by
  have bit : Cause.wake.bit = 0x080 := rfl
  unfold wakeSteps
  dsimp only
  rw [restartEnabled_eq, raise_eq, bit]
  rfl

theorem wakeSteps_eq {s : State} (hd : startUpDone s = true) (hoff : s.dse.panelOn = false) : wakeSteps s = wokenUp s := by
  have done : startUpDone (wokenDark s) = true := hd
  rw [wakeSteps_wokenDark, panelTurnOn_toRun (s := wokenDark s) hoff rfl, if_pos done]
  rfl

theorem wakeUp_probe (x : Pfe) (i : Fin 16) : x.wakeUp.probes[i] = { x.probes[i] with
    level := decide (20 * (x.bank i).code ≤ x.pins[i]), edgesNow := 0, edgesLast := 0, candidate := none, wake := none } := by
  simp [Pfe.wakeUp, Probe.wakeUp, Pfe.raw]

theorem wakeSteps_setCtl (c : Ctl) (s : State) : wakeSteps (s.setCtl c) = (wakeSteps s).setCtl c := by
  rw [wakeSteps_wokenDark, wakeSteps_wokenDark]
  exact panelTurnOn_setCtl c (wokenDark s)

theorem wakeSteps_frame (s : State) : (wakeSteps s).ctl = s.ctl ∧ (wakeSteps s).inReset = s.inReset
    ∧ (wakeSteps s).pwu = ran s.pwu ∧ (wakeSteps s).rte.serving = s.rte.serving := by
  obtain ⟨d, hd⟩ := panelTurnOn_dse (wokenDark s)
  rw [wakeSteps_wokenDark, hd]
  exact ⟨rfl, rfl, rfl, rfl⟩

/-- The chain timer that has just been started is started again. -/
theorem heard_ran {p : Pwu} {s : State} (h : s.pwu = ran p) : heard s = s.pwu := by
  unfold heard
  rw [h]
  split <;> rfl

/-- A command judged as wake completes (R167, R174). -/
theorem judge_woken {p : Pwu} {s : State} (h : s.pwu = ran p) (byte : Byte) (f : Frame) (cut : Bool) :
    judge byte f cut s = match linkCheck byte f s.ctl.link with
      | .error st => refuseCommand cut st s
      | .ok c => handOver c f.operands cut s := by
  have op : s.pwu.op = .none := by rw [h]; rfl
  have power : s.pwu.power = .run := by rw [h]; rfl
  unfold judge
  dsimp only
  rw [abortSleepEntry_none op, takingActivity_run op power, heard_ran h]
  rfl

theorem handOver_woken {p : Pwu} {s : State} (h : s.pwu = ran p) {c : Cmd} {ops : List Byte} (cut : Bool)
    (h1 : c ≠ .laneSet) (h2 : c ≠ .laneEnable) (h3 : c ≠ .powerSet) : handOver c ops cut s = toOwner c ops cut s := by
  have op : s.pwu.op = .none := by rw [h]; rfl
  have power : s.pwu.power = .run := by rw [h]; rfl
  have quiet : takingActivity s = s := by
    rw [takingActivity_run op power, heard_ran h]
    rfl
  have general : handOver c ops cut s = toOwner c ops cut (takingActivity s) := by
    cases c with
    | laneSet => exact absurd rfl h1
    | laneEnable => exact absurd rfl h2
    | powerSet => exact absurd rfl h3
    | _ => rfl
  rw [general, quiet]

/-- The link once these commands of the RTE have joined those that wait (R167, R176). -/
def joined (ws : List Waiting) (c : Ctl) : Ctl :=
  { c with
    waiting := c.waiting ++ ws
    phase := if ws.any (fun w => !w.cut) then .waiting else c.phase }

theorem judge_rte {p : Pwu} {s : State} (h : s.pwu = ran p) (hk : s.ctl.link = .ready) {w : Waiting}
    (ho : ownerOf w.cmd w.operands = .rte) (hl : w.operands.length = w.cmd.operandLength) :
    judge w.cmd.code (Frame.ofOperands w.operands) w.cut s = s.setCtl (joined [w] s.ctl) := by
  have := operandLength_le w.cmd
  have length : (Frame.ofOperands w.operands).len.toNat = w.cmd.operandLength := by rw [ofOperands_len (by omega), hl]
  rw [judge_woken h, linkCheck_ready hk length]
  dsimp only
  rw [handOver_woken h]
  · rw [ofOperands_operands, toOwner, advanceAll, ho, advance_rte]
    obtain ⟨cmd, ops, cut⟩ := w
    cases cut <;> rfl
  all_goals
    intro hc
    rw [hc] at ho
    cases ho

theorem takeDeferred_rte {p : Pwu} {s : State} (h : s.pwu = ran p) (hr : s.inReset = false) {ws : List Waiting}
    (hk : ws = [] ∨ s.ctl.link = .ready)
    (hw : ∀ w ∈ ws, ownerOf w.cmd w.operands = .rte ∧ w.operands.length = w.cmd.operandLength) (c : Ctl)
    (hc : c.link = s.ctl.link) :
    (ws.map fun w => (⟨w.cmd.code, Frame.ofOperands w.operands, w.cut⟩ : Deferred)).foldl
        (fun s d => if s.inReset then s else judge d.command d.frame d.cut s) (s.setCtl c) = s.setCtl (joined ws c) := by
  induction ws generalizing c with
  | nil =>
    have none : joined [] c = c := by
      unfold joined
      rw [List.append_nil]
      rfl
    rw [none]
    rfl
  | cons w ws ih =>
    have ready : s.ctl.link = .ready := hk.resolve_left nofun
    obtain ⟨owner, length⟩ := hw w List.mem_cons_self
    have first := judge_rte (s := s.setCtl c) h (hc.trans ready) owner length
    have both : joined ws (joined [w] c) = joined (w :: ws) c := by
      rcases Bool.eq_false_or_eq_true w.cut with cut | cut <;> simp [joined, cut]
    rw [List.map_cons, List.foldl_cons, if_neg (by rw [State.setCtl_inReset, hr]; nofun), first, State.setCtl_setCtl]
    exact (ih (.inr ready) (fun v hv => hw v (List.mem_cons_of_mem w hv)) (joined [w] c) hc).trans (congrArg s.setCtl both)

/-- A VIEW-OPTIONS taken during wake is answered as wake completes (R167, R175; log 11). -/
theorem judge_viewOptions {p : Pwu} {s : State} (h : s.pwu = ran p) (hk : s.ctl.link = .ready)
    (hw : ∀ w ∈ s.ctl.waiting, ownerOf w.cmd w.operands ≠ .dse) (v : Byte) : judge 0x39 ⟨1, [v]⟩ false s =
      { s with
        dse := { s.dse with window := min 15 v.toNat }
        ctl := { s.ctl with
          phase := .answer
          txn := { s.ctl.txn with
            answer := Answer.bytes ⟨.ok, [byteOf (min 15 v.toNat)]⟩, sent := 0, restarts := false, sleeps := false } } } := by
  have check : linkCheck 0x39 ⟨1, [v]⟩ s.ctl.link = .ok .viewOptions := linkCheck_ready (c := .viewOptions) hk rfl
  rw [judge_woken h, check]
  dsimp only
  rw [handOver_woken (c := .viewOptions) h false nofun nofun nofun, toOwner_ready (c := .viewOptions) hw rfl rfl]
  rfl

theorem judge_held {p : Pwu} {s : State} (h : s.pwu = ran p) (hk : s.ctl.link = .held) (v : Byte) :
    judge 0x39 ⟨1, [v]⟩ false s = s.setCtl { s.ctl with
      phase := .answer
      txn := { s.ctl.txn with answer := Answer.bytes ⟨.held, []⟩, sent := 0, restarts := false, sleeps := false } } := by
  have check : linkCheck 0x39 ⟨1, [v]⟩ s.ctl.link = .error .held := by rw [hk]; rfl
  rw [judge_woken h, check]
  rfl

theorem takeDeferred_one {s : State} {d : Deferred} (hr : s.inReset = false) (h : s.ctl.deferred = [d]) :
    takeDeferredCommands s = judge d.command d.frame d.cut (s.setCtl { s.ctl with deferred := [] }) := by
  rw [takeDeferredCommands, h]
  exact if_neg (by rw [State.setCtl_inReset, hr]; nofun)

section
variable {p : Pwu} {s : State} (h : s.pwu = ran p) (hr : s.inReset = false)
include h hr

theorem takeDeferred_queue {ws : List Waiting} (hd : s.ctl.deferred
      = ws.map fun w => (⟨w.cmd.code, Frame.ofOperands w.operands, w.cut⟩ : Deferred)) (hk : ws = [] ∨ s.ctl.link = .ready)
    (hw : ∀ w ∈ ws, ownerOf w.cmd w.operands = .rte ∧ w.operands.length = w.cmd.operandLength) :
    takeDeferredCommands s = s.setCtl (joined ws { s.ctl with deferred := [] }) := by
  rw [takeDeferredCommands, hd]
  exact takeDeferred_rte h hr hk hw _ rfl

theorem takeDeferred_viewOptions {v : Byte} (hd : s.ctl.deferred = [⟨0x39, ⟨1, [v]⟩, false⟩]) (hk : s.ctl.link = .ready)
    (hw : ∀ w ∈ s.ctl.waiting, ownerOf w.cmd w.operands ≠ .dse) : takeDeferredCommands s =
      { s with
        dse := { s.dse with window := min 15 v.toNat }
        ctl := { s.ctl with
          deferred := [], phase := .answer
          txn := { s.ctl.txn with
            answer := Answer.bytes ⟨.ok, [byteOf (min 15 v.toNat)]⟩, sent := 0, restarts := false, sleeps := false } } } := by
  rw [takeDeferred_one hr hd, judge_viewOptions (s := s.setCtl { s.ctl with deferred := [] }) h hk hw]
  rfl

theorem takeDeferred_held {v : Byte} (hd : s.ctl.deferred = [⟨0x39, ⟨1, [v]⟩, false⟩]) (hk : s.ctl.link = .held) :
    takeDeferredCommands s = s.setCtl { s.ctl with
      deferred := [], phase := .answer
      txn := { s.ctl.txn with answer := Answer.bytes ⟨.held, []⟩, sent := 0, restarts := false, sleeps := false } } := by
  rw [takeDeferred_one hr hd, judge_held (s := s.setCtl { s.ctl with deferred := [] }) h hk]
  rfl

end

theorem wokenUp_pwu (s : State) : (wokenUp s).pwu = ran s.pwu := by rw [wokenUp]

theorem wokenUp_ctl (s : State) : (wokenUp s).ctl = s.ctl := by rw [wokenUp]

theorem wokenUp_inReset (s : State) : (wokenUp s).inReset = s.inReset := by rw [wokenUp]

theorem wokenUp_lanes (s : State) (i : Fin 4) : (wokenUp s).lanes[i]
    = if (s.lanes[i]).enabled then (s.lanes[i]).restart .marking s.pfe.wakeUp.levels else s.lanes[i] := by
  simp [wokenUp]

theorem exec_wakeCompletion {s : State} (hr : s.inReset = false) (hop : s.pwu.op = .wake) :
    exec .wakeCompletion s = .next (settle (takeDeferredCommands (wakeSteps s))) :=
  (live_next hr).trans (congrArg (fun t => Host.Outcome.next (settle t)) (if_pos hop))

theorem code_of_ofByte {b : Byte} {c : Cmd} (h : Cmd.ofByte b = some c) : c.code = b := by
  simpa using List.find?_some h

/-- The state in which the one command taken during wake is judged (R167). -/
def wokenAlone (s : State) : State := (wakeSteps s).setCtl { s.ctl with deferred := [] }

theorem wakeCompletion_none {s : State} (hr : s.inReset = false) (hop : s.pwu.op = .wake) :
    exec .wakeCompletion { s with ctl := { s.ctl with deferred := [] } } = .next (settle (wokenAlone s)) := by
  have woken : wakeSteps { s with ctl := { s.ctl with deferred := [] } } = wokenAlone s := wakeSteps_setCtl _ s
  have row := exec_wakeCompletion (s := s.setCtl { s.ctl with deferred := [] }) hr hop
  have none : takeDeferredCommands (wokenAlone s) = wokenAlone s := rfl
  exact row.trans (congrArg (fun t => Host.Outcome.next (settle t)) ((congrArg takeDeferredCommands woken).trans none))

section
variable {byte : Byte} {f : Frame} {s woken opened : State} (hr : s.inReset = false) (hop : s.pwu.op = .wake)
  (hl : s.ctl.lselLow = true) (htxn : s.ctl.txn = Txn.ofFrame byte f)
  (hcell : s.ctl.cell = some takingCell) (hf : f.wellFormed = true) (hd : s.ctl.deferred = [⟨byte, f, false⟩])
  (hw : exec .wakeCompletion { s with ctl := { s.ctl with deferred := [] } } = .next woken)
  (ho : opened = { woken with
    rte := { woken.rte with serving := s.rte.serving }
    ctl := { woken.ctl with phase := .command, txn := Txn.empty, cell := some ⟨[], false, 0xFF, false⟩ } })
include hr hop hl htxn hcell hf hd hw ho

/-- A command taken during wake, alone, is judged as at its taking in the RUN that follows (R167). -/
theorem wakeCompletion_judged : exec .wakeCompletion s = live (commandTaken byte f) opened := by
  obtain ⟨ctl, quiet, pwu, serving⟩ := wakeSteps_frame s
  have same : woken = settle (wokenAlone s) := by
    have := hw.symm.trans (wakeCompletion_none hr hop)
    injection this
  have afresh : opened = (wakeSteps s).setCtl
      { s.ctl with deferred := [], phase := .command, txn := Txn.empty, cell := some ⟨[], false, 0xFF, false⟩ } := by
    rw [ho, same, ← serving]
    rfl
  have running : opened.inReset = false := by rw [afresh]; exact quiet.trans hr
  have judged : commandTaken byte f opened = judge byte f false (wokenAlone s) := by
    have awake : (withPhase .command (wokenAlone s)).pwu.power ≠ .sleep := by
      have run : (withPhase .command (wokenAlone s)).pwu = ran s.pwu := pwu
      rw [run]
      nofun
    have recorded : opened.setCtl { opened.ctl with txn := Txn.ofFrame byte f, cell := some (Cell.complete 0xFF false) }
        = withPhase .command (wokenAlone s) := by
      rw [afresh, wokenAlone, ← htxn, show Cell.complete 0xFF false = takingCell from rfl, ← hcell]
      rfl
    rw [commandTaken_fresh (by rw [afresh]; exact hl) (by rw [afresh]; rfl) (by rw [afresh]; rfl) (by rw [afresh]; rfl) hf,
      take, recorded]
    exact (if_neg awake).trans (judge_withPhase _ _ _ _)
  have one := takeDeferred_one (s := wakeSteps s) (quiet.trans hr) (by rw [ctl]; exact hd)
  rw [exec_wakeCompletion hr hop, live_next running, judged, one, ctl]
  rfl

end

/-- Settles O46: the comparators by `wakeFilters_seen`; the completion of wake by `wakeSteps_eq` and `judge_woken`. -/
theorem sleepAndWake : Obligations.SleepAndWake := by
  intro s running
  refine ⟨fun ho hl hs _ hw => ?_, fun i c ref hit hp hw hh => ?_, fun ws v ctl window hop hd hoff hcase => ?_,
    fun byte f woken open' hop hlow _ htxn hcell hf hdef hwoken hopen => ?_⟩
  · have row := (live_next (f := sleepEntryCompletion) running).trans
      (congrArg (fun t => Host.Outcome.next (settle t)) (sleepEntryCompletion_eq ho hl hs hw))
    have seen := wakeFilters_seen (s := asleep s) rfl probeNumbers
    obtain ⟨t, ht⟩ : ∃ t, wakeFilters probeNumbers (asleep s) = t := ⟨_, rfl⟩
    rw [ht] at row seen
    have power : t.pwu.power = .sleep := by rw [seen.power, asleep]
    have timer : t.rte.epochTimer = false := by rw [seen.rte, asleep]
    have lanes : t.lanes = s.lanes := by rw [seen.lanes, asleep]
    have table : t.rte.table = s.rte.table := by rw [seen.table, asleep]
    have wta : t.wta = s.wta := by rw [seen.wta, asleep]
    have dse : t.dse = s.dse := by rw [seen.dse, asleep]
    have ctl : t.ctl = s.ctl := by rw [seen.ctl, asleep]
    have pim : t.pim = s.pim := by rw [seen.pim, asleep]
    refine ⟨_, row, power, timer, fun i => ?_, fun reports hreports => ?_, lanes, table, wta, dse, ctl, pim⟩
    · have probe := (seen.probes i).trans (if_pos (decide_eq_true (mem_probeNumbers i)))
      rw [asleep_probe] at probe
      rw [settle_pfe, probe]
      exact ⟨rfl, rfl, rfl, rfl, rfl, enterSleep_wake _ _ _ _⟩
    · have reported : wakeReports (fun i => i ∈ probeNumbers) (asleep s) = reports := by
        rw [hreports]
        funext i
        exact (asleep_reports s i).trans (congrArg (_ && ·) (matches_eq _ _))
      have pwu := seen.pwu
      rw [reported] at pwu
      exact ⟨fun i => (seen.pending i).trans (by rw [reported]; rfl), pwu⟩
  · refine (live_next running).trans (congrArg (fun t => Host.Outcome.next (settle t)) ?_)
    rw [wakeSideEdge_eq hp hw, matches_eq, hh]
    rfl
  · have row := exec_wakeCompletion running hop
    rw [wakeSteps_eq hd hoff] at row
    suffices left : takeDeferredCommands (wokenUp s)
        = { wokenUp s with dse := { panelCameOn 100 s with window := window }, ctl := ctl } by
      rw [left] at row
      exact ⟨_, row, rfl, wakeUp_probe s.pfe, rfl, rfl, rfl, wokenUp_lanes s, rfl, rfl, rfl, rfl⟩
    have quiet : (wokenUp s).inReset = false := (wokenUp_inReset s).trans running
    rw [← wokenUp_ctl s] at hcase
    rcases hcase with ⟨hdef, hk, hws, rfl, rfl⟩ | ⟨hdef, hk, hfree, rfl, rfl⟩ | ⟨hdef, hk, rfl, rfl⟩
    · exact takeDeferred_queue (wokenUp_pwu s) quiet hdef hk hws
    · exact takeDeferred_viewOptions (wokenUp_pwu s) quiet hdef hk hfree
    · exact takeDeferred_held (wokenUp_pwu s) quiet hdef hk
  · have row := wakeCompletion_judged running hop hlow htxn hcell hf hdef hwoken hopen
    refine ⟨fun c hc => ?_, fun _ => row⟩
    rw [exec_takenRow, code_of_ofByte hc]
    exact row

end Sys2Proof.Machine
end

section
/-! PROOF. A seed of a profile image is applied, skipped or refused (R92, R93, R94, R110, R111, R187, R189, R191, R200). -/

namespace Sys2Proof.Machine

/-! ### The entry -/

theorem parseSeed_eq {e : List Byte} (h : e.length = 32) : parseSeed e =
    { key := keyOf (e.take 4), width := byteAt e 4, pinned := (e.getD 5 0).getLsbD 0, notify := (e.getD 5 0).getLsbD 1
      expectation := if (e.getD 6 0).getLsbD 0 then
        some ⟨BitVec.ofNat 32 (fourAt e 7), BitVec.ofNat 32 (fourAt e 11)⟩ else none
      labelLength := byteAt e 15, labelBytes := (e.drop 16).take 12 } := by
  have word (i : Nat) (hi : i + 4 ≤ 32) : wordAt e i = BitVec.ofNat 32 (fourAt e i) :=
    congrArg (BitVec.ofNat 32) (natAt_four (by omega))
  rw [parseSeed, word 7 (by omega), word 11 (by omega)]
  rfl

/-- The four checks of a seed, spelled out (R191). -/
theorem passes_spelled {x : SeedEntry} {keys : List Key} {s : State} : x.passes keys s = true ↔ x.key ∉ keys
    ∧ keyFits (s.lanes[x.key.lane]).cfg x.key = true ∧ x.width = (s.lanes[x.key.lane]).cfg.w ∧ x.labelLength ≤ 12
    ∧ ∀ b ∈ x.labelBytes.take x.labelLength, 0x20 ≤ b.toNat ∧ b.toNat ≤ 0x7E := by
  have character (b : Byte) : printable b = true ↔ 0x20 ≤ b.toNat ∧ b.toNat ≤ 0x7E := by simp [printable]
  simp [SeedEntry.passes, character, and_assoc]

theorem applySeed_skipped {x : SeedEntry} {keys : List Key} {s : State} (h : ¬ x.passes keys s = true) :
    applySeed x keys s = (s, false) := if_neg h

section
variable {x : SeedEntry} {keys : List Key} {s t : State} (h : x.passes keys s = true)
include h

theorem applySeed_present {r : Record} (hr : lookup x.key s.rte.table = some r) :
    applySeed x keys s = (amendRecord x.amendment r s, true) := by
  rw [applySeed, if_pos h, hr]

theorem applySeed_admitted (hr : ∀ r ∈ s.rte.table, r.key ≠ x.key) (ha : admitKey x.key x.width s = (t, true)) :
    applySeed x keys s = (amendRecord x.amendment (newRecord x.key x.width t.rte.epoch) t, true) := by
  rw [applySeed, if_pos h, lookup_none.2 hr, ha]

theorem applySeed_refused (hr : ∀ r ∈ s.rte.table, r.key ≠ x.key) (ha : admitKey x.key x.width s = (t, false)) :
    applySeed x keys s = (t, false) := by
  rw [applySeed, if_pos h, lookup_none.2 hr, ha]

end

/-! ### The unit of a seed -/

/-- A seed served as its unit: what it leaves, and the load goes on (R189, R191). -/
theorem seedServed_eq {s t : State} {l m : Load} {b : Bool} (hop : s.pim.op = .load l) (hst : l.stage = .seeding)
    (hs : s.rte.serving = some .profile)
    (ha : applySeed (parseSeed (s.pim.flash.readAll (144 + 32 * l.next) 32)) l.keys s = (t, b))
    (hm : l.seeded (parseSeed (s.pim.flash.readAll (144 + 32 * l.next) 32)).key b = m)
    (kept : t.pim = s.pim ∧ t.pwu = s.pwu ∧ t.dse = s.dse ∧ t.ctl = s.ctl)
    (hlaw : s.pim.flash.seedCount ≤ l.next + 1 → DeferredLaw s ∧ (l.scope = .startUp → OnlyReleasesWait s)) :
    seedServed s = unitDone .profile (seedsGoOn m t) := by
  obtain ⟨pim, pwu, dse, ctl⟩ := kept
  have next : m.next = l.next + 1 ∧ m.scope = l.scope ∧ m.stage = .seeding := by rw [← hm]; exact ⟨rfl, rfl, hst⟩
  have same : { m with stage := .seeding } = m := by rw [← next.2.2]
  have goOn : seedsNext m t = seedsGoOn m t := by
    have := seedsNext_eq (l := m) (s := t) (by rw [pim, next.1, next.2.1, DeferredLaw, OnlyReleasesWait, pwu, dse, ctl]; exact hlaw)
    rwa [same] at this
  have unit : seedServed s = finishUnit .profile (seedsNext (l.seeded
      (parseSeed (s.pim.flash.seed l.next)).key (applySeed (parseSeed (s.pim.flash.seed l.next)) l.keys s).2)
      (applySeed (parseSeed (s.pim.flash.seed l.next)) l.keys s).1) := by
    unfold seedServed
    rw [load_some hop]
    exact (if_pos hst).trans (unitAt_serving hs)
  rw [unit, Flash.seed, ha, hm, goOn]
  rfl

/-- The amendment of a seed, applied (R110, R111, R191). -/
def seeded (x : SeedEntry) (r : Record) : Record := { r with
  label := if x.labelLength = 0 then none else some (x.labelBytes.take x.labelLength)
  pinned := x.pinned
  notify := x.notify
  expectation := x.expectation.map fun e => ⟨e.expected &&& widthMask r.width, e.mask &&& widthMask r.width⟩
  mismatched := (match x.expectation with
    | none => false
    | some e => r.mismatched || r.value.elim false fun v =>
      ((v ^^^ (e.expected &&& widthMask r.width)) &&& (e.mask &&& widthMask r.width)) != 0) }

theorem amended_seed (x : SeedEntry) (r : Record) : r.amended x.amendment = seeded x r := by
  rw [amended_eq]
  unfold SeedEntry.amendment seeded
  cases x.expectation with
  | none => simp
  | some e => simp

theorem amendRecord_seed (x : SeedEntry) (r : Record) (s : State) : amendRecord x.amendment r s =
    { s with
      rte := { s.rte with table := s.rte.table.map fun y => if y.key = r.key then seeded x r else y }
      wta := { s.wta with causes := s.wta.causes
        ||| (if (seeded x r).mismatched && !r.mismatched then 0x002 else 0) } } := by
  have newly : (if (seeded x r).mismatched = true ∧ (r.mismatched && !x.amendment.clearMismatched) = false then (0x002 : BitVec 9) else 0)
      = if (seeded x r).mismatched && !r.mismatched then 0x002 else 0 :=
    if_congr (by simp [SeedEntry.amendment]) rfl rfl
  rw [amendRecord_eq, amended_seed, newly]
  rfl

/-- The record a seed creates, amended (R92, R191). -/
theorem amendRecord_created (x : SeedEntry) {s : State} {t : List Record} (ht : ∀ r ∈ t, r.key ≠ x.key) :
    amendRecord x.amendment (newRecord x.key x.width s.rte.epoch)
        (s.setRte { s.rte with table := insertRecord (newRecord x.key x.width s.rte.epoch) t })
      = s.setRte { s.rte with table := insertRecord (seeded x (newRecord x.key x.width s.rte.epoch)) t } := by
  have table : updateRecord x.key (fun _ => seeded x (newRecord x.key x.width s.rte.epoch))
      (insertRecord (newRecord x.key x.width s.rte.epoch) t) = insertRecord (seeded x (newRecord x.key x.width s.rte.epoch)) t :=
    updateRecord_insertRecord (r := newRecord x.key x.width s.rte.epoch)
      (f := fun _ => seeded x (newRecord x.key x.width s.rte.epoch)) rfl ht
  have quiet : (seeded x (newRecord x.key x.width s.rte.epoch)).mismatched = false := by
    unfold seeded
    cases x.expectation <;> rfl
  have causes : s.wta.causes ||| (0 : BitVec 9) = s.wta.causes := BitVec.or_zero
  rw [amendRecord_eq, amended_seed, if_neg (by rw [quiet]; exact fun h => nomatch h.1), State.setRte_wta, causes]
  exact congrArg (fun t => s.setRte { s.rte with table := t }) table

/-- Settles O41: each entry by what `applySeed` does with it, its unit by `seedServed_eq`. -/
theorem seedIsApplied : Obligations.SeedIsApplied := by
  refine ⟨fun e => parseSeed_eq, ?_⟩
  rintro s l loaded skipped x ⟨running, hop⟩ hst hs hlaw hx hloaded hskipped
  have unit {t : State} {b : Bool} {m : Load} (ha : applySeed x l.keys s = (t, b)) (hm : l.seeded x.key b = m)
      (kept : t.pim = s.pim ∧ t.pwu = s.pwu ∧ t.dse = s.dse ∧ t.ctl = s.ctl) :
      exec .seedApplication s = .next (settle (unitDone .profile (seedsGoOn m t))) := by
    rw [hx] at ha hm
    exact (live_next running).trans (congrArg (fun t => Host.Outcome.next (settle t))
      (seedServed_eq hop hst hs ha hm kept hlaw))
  have skips : l.seeded x.key false = skipped := hskipped.symm
  have loads : l.seeded x.key true = loaded := hloaded.symm
  refine ⟨fun hbad => ?_, fun hfresh hfits hwidth hlabel hchars amended new ham hnew => ?_⟩
  · refine unit (applySeed_skipped fun passes => ?_) skips ⟨rfl, rfl, rfl, rfl⟩
    obtain ⟨fresh, fits, width, label, chars⟩ := passes_spelled.1 passes
    rcases hbad with h | h | h | h | ⟨b, hb, h⟩
    · exact fresh h
    · exact absurd (h.symm.trans fits) nofun
    · exact h width
    · omega
    · have := chars b hb
      omega
  · have passes := passes_spelled.2 ⟨hfresh, hfits, hwidth, hlabel, hchars⟩
    have amends : amended = seeded x := ham
    have creates : newRecord x.key x.width s.rte.epoch = new := hnew.symm
    subst amends creates
    refine ⟨fun r hr => ?_, fun habsent hroom => ?_, fun habsent hfull ht hex => ?_, fun habsent hfull hprot => ?_⟩
    · have applied := applySeed_present passes hr
      rw [amendRecord_seed, lookup_key hr] at applied
      exact unit applied loads ⟨rfl, rfl, rfl, rfl⟩
    · have applied := applySeed_admitted passes habsent (admitKey_room hroom)
      have created := amendRecord_created x (s := s) habsent
      exact unit (applied.trans (congrArg (·, true) created)) loads ⟨rfl, rfl, rfl, rfl⟩
    · obtain ⟨c, hcm, hcp, hcw, chosen, coldest⟩ := evictionCandidate_coldest ht hex
      refine ⟨c, hcm, hcp, hcw, fun r hr hp hw hne => colder_iff.1 (coldest r hr hp hw hne), ?_⟩
      have applied := applySeed_admitted passes habsent (admitKey_evicts hfull.ge chosen hcw)
      have created := amendRecord_created x (s := s) (t := s.rte.table.filter fun y => y.key ≠ c.key)
        fun r hm => habsent r (List.mem_filter.1 hm).1
      exact unit (applied.trans (congrArg (·, true) created)) loads ⟨rfl, rfl, rfl, rfl⟩
    · exact unit (applySeed_refused passes habsent (admitKey_full hfull hprot)) skips ⟨rfl, rfl, rfl, rfl⟩

end Sys2Proof.Machine
end

section
/-! PROOF. The entries of a settings block: lanes, trap windows and rows, spelled from R200 and R201 (R18, R19, R190). -/

namespace Sys2Proof.Machine

/-! ### The bytes of a stored lane entry -/

theorem field_eq (n low width : Nat) : field n low width = n / 2 ^ low % 2 ^ width := rfl

theorem halfAt_lt (e : List Byte) (j : Nat) : halfAt e j < 16 := Nat.mod_lt _ (by decide)

theorem nibbles_eq {e : List Byte} (h : e.length = 6) : nibbles (bytesAt e 2 4) = [halfAt e 0, halfAt e 1, halfAt e 2,
    halfAt e 3, halfAt e 4, halfAt e 5, halfAt e 6, halfAt e 7] := by
  match e, h with
  | [_, _, c, d, f, g], _ =>
    have low (b : Byte) : b.toNat % 16 = b.toNat / 1 % 16 := by rw [Nat.div_one]
    have high (b : Byte) : b.toNat / 16 = b.toNat / 16 % 16 := by
      have := b.isLt
      omega
    show [c.toNat / 16, c.toNat % 16, d.toNat / 16, d.toNat % 16, f.toNat / 16, f.toNat % 16, g.toNat / 16, g.toNat % 16] = _
    rw [low c, low d, low f, low g, high c, high d, high f, high g]
    rfl

/-- A field of a four-wire entry, and 0 in the entry of another kind (R201). -/
def fourOnly (e : List Byte) (n : Nat) : Nat := if byteAt e 0 / 64 = 2 then n else 0

/-- The 24 configuration bytes that a lane entry gives, as numbers (R201). -/
def entryList (e : List Byte) : List Nat :=
  [byteAt e 0 / 64, widthOfCode (byteAt e 0 / 16 % 4), byteAt e 0 / 8 % 2 + 1, byteAt e 0 / 4 % 2, byteAt e 0 / 2 % 2,
    if byteAt e 0 / 64 = 1 then byteAt e 1 % 2 else 0,
    fourOnly e (byteAt e 1 / 64), fourOnly e (byteAt e 1 / 32 % 2), fourOnly e (byteAt e 1 / 8 % 4) + 1,
    fourOnly e (byteAt e 1 / 4 % 2), fourOnly e (byteAt e 1 % 4), fourOnly e (halfAt e 7),
    if byteAt e 0 / 64 = 3 then byteAt e 1 else 32,
    if byteAt e 0 / 64 = 1 then halfAt e 0 else 0, if byteAt e 0 / 64 = 1 then halfAt e 1 else 0,
    fourOnly e (halfAt e 0),
    if 0 < fourOnly e (byteAt e 1 / 8 % 4) + 1 then fourOnly e (halfAt e 1) else 0,
    if 1 < fourOnly e (byteAt e 1 / 8 % 4) + 1 then fourOnly e (halfAt e 2) else 0,
    if 2 < fourOnly e (byteAt e 1 / 8 % 4) + 1 then fourOnly e (halfAt e 3) else 0,
    if 3 < fourOnly e (byteAt e 1 / 8 % 4) + 1 then fourOnly e (halfAt e 4) else 0,
    fourOnly e (halfAt e 5), fourOnly e (halfAt e 6),
    if byteAt e 0 / 64 = 3 then halfAt e 0 else 0, if byteAt e 0 / 64 = 3 then halfAt e 1 else 0]

theorem byteAt_lt (e : List Byte) (i : Nat) : byteAt e i < 256 := (e.getD i 0).isLt

theorem storedSelects_eq (a b c d n : Nat) (h : n < 4) : storedSelects (n + 1) [a, b, c, d]
    = [if 0 < n + 1 then a else 0, if 1 < n + 1 then b else 0, if 2 < n + 1 then c else 0, if 3 < n + 1 then d else 0] := by
  match n, h with
  | 0, _ => rfl
  | 1, _ => rfl
  | 2, _ => rfl
  | 3, _ => rfl

theorem entryConfig_eq {e : List Byte} (h : e.length = 6) : entryConfig e = (entryList e).map byteOf := by
  have b0 := byteAt_lt e 0
  have b1 := byteAt_lt e 1
  have kind : field (byteAt e 0) 6 2 = byteAt e 0 / 64 := by rw [field_eq]; omega
  have mode : field (byteAt e 1) 6 2 = byteAt e 1 / 64 := by rw [field_eq]; omega
  have known : byteAt e 0 / 64 = 0 ∨ byteAt e 0 / 64 = 1 ∨ byteAt e 0 / 64 = 2 ∨ byteAt e 0 / 64 = 3 := by omega
  have selects : entryConfig.bytesAt' [halfAt e 0, halfAt e 1, halfAt e 2, halfAt e 3, halfAt e 4, halfAt e 5, halfAt e 6,
      halfAt e 7] 1 4 = [halfAt e 1, halfAt e 2, halfAt e 3, halfAt e 4] := rfl
  have stored := storedSelects_eq (halfAt e 1) (halfAt e 2) (halfAt e 3) (halfAt e 4) _
    (Nat.mod_lt (byteAt e 1 / 8) (by decide : 4 > 0))
  unfold entryConfig entryList fourOnly
  dsimp only
  rw [nibbles_eq h, kind, selects]
  rcases known with k | k | k | k
  all_goals rw [k]
  · simp [field_eq]
  · simp [field_eq]
  · have count : field (byteAt e 1) 3 2 = byteAt e 1 / 8 % 4 := rfl
    simp only [mode, count, stored]
    simp [field_eq]
  · simp [field_eq]

/-- The configuration bytes of a lane entry, as numbers (R201). -/
theorem byteAt_entryConfig {e : List Byte} (h : e.length = 6) (i : Nat) : byteAt (entryConfig e) i = (entryList e).getD i 0 := by
  have b0 := byteAt_lt e 0
  have b1 := byteAt_lt e 1
  have width : widthOfCode (byteAt e 0 / 16 % 4) < 256 := by
    unfold widthOfCode
    split <;> omega
  have four (n : Nat) (hn : n < 255) : fourOnly e n < 255 := by
    unfold fourOnly
    split <;> omega
  have fourHalf (j : Nat) : fourOnly e (halfAt e j) < 256 := (four _ ((halfAt_lt e j).trans (by decide))).trans (by decide)
  have half (j : Nat) : halfAt e j < 256 := (halfAt_lt e j).trans (by decide)
  have gated (p : Prop) [Decidable p] {n m : Nat} (hn : n < 256) (hm : m < 256) : (if p then n else m) < 256 := by
    split <;> assumption
  have zero : 0 < 256 := by decide
  have small : ∀ n ∈ entryList e, n < 256 := by
    simp only [entryList, List.forall_mem_cons]
    exact ⟨by omega, width, by omega, by omega, by omega, gated _ (by omega) zero, (four _ (by omega)).trans (by decide),
      (four _ (by omega)).trans (by decide), Nat.succ_lt_succ (four _ (by omega)), (four _ (by omega)).trans (by decide),
      (four _ (by omega)).trans (by decide), fourHalf 7, gated _ b1 (by decide), gated _ (half 0) zero, gated _ (half 1) zero,
      fourHalf 0, gated _ (fourHalf 1) zero, gated _ (fourHalf 2) zero, gated _ (fourHalf 3) zero, gated _ (fourHalf 4) zero,
      fourHalf 5, fourHalf 6, gated _ (half 0) zero, gated _ (half 1) zero, fun _ hn => absurd hn List.not_mem_nil⟩
  rw [entryConfig_eq h, byteAt, List.getD_eq_getElem?_getD, List.getElem?_map, List.getD_eq_getElem?_getD]
  cases hi : (entryList e)[i]? with
  | none => rfl
  | some n => exact Nat.mod_eq_of_lt (small n (List.mem_of_getElem? hi))

theorem length_entryConfig {e : List Byte} (h : e.length = 6) : (entryConfig e).length = 24 := by
  rw [entryConfig_eq h]
  rfl

/-! ### The checks and the configuration of a lane entry -/

/-- The pin map places of a kind's roles lie this far above the fields of its entry (R197, R201). -/
def roleShift (kind : Nat) : Nat := if kind = 2 then 2 else if kind = 3 then 9 else 0

theorem rolePlaces_eq (kind selects : Nat) : rolePlaces kind selects = (roleHalves kind selects).map (· + roleShift kind) := by
  unfold rolePlaces roleHalves roleShift
  by_cases h1 : kind = 1
  · simp [h1]
  · by_cases h2 : kind = 2
    · simp [h2, Function.comp_def]
      omega
    · by_cases h3 : kind = 3 <;> simp [h1, h2, h3]

/-- The entry of a role in the configuration bytes is its field of the lane entry (R201). -/
theorem entryList_role {e : List Byte} {m : Nat} (hm : m ∈ roleHalves (byteAt e 0 / 64) (byteAt e 1 / 8 % 4 + 1)) :
    (entryList e).getD (13 + (m + roleShift (byteAt e 0 / 64))) 0 = halfAt e m := by
  unfold roleHalves at hm
  split at hm
  · next kind =>
    rcases kind with kind | kind <;> rcases List.mem_pair.1 hm with rfl | rfl <;> simp [entryList, roleShift, kind]
  · split at hm
    · next kind =>
      simp only [List.mem_append, List.mem_cons, List.mem_map, List.mem_range, List.not_mem_nil, or_false] at hm
      rcases hm with (rfl | ⟨n, hn, rfl⟩) | rfl | rfl
      · simp [entryList, roleShift, fourOnly, kind]
      · have four : n < 4 := by omega
        match n, four with
        | 0, _ => simp [entryList, roleShift, fourOnly, kind]
        | 1, _ => simp [entryList, roleShift, fourOnly, kind]; omega
        | 2, _ => simp [entryList, roleShift, fourOnly, kind]; omega
        | 3, _ => simp [entryList, roleShift, fourOnly, kind]; omega
      · simp [entryList, roleShift, fourOnly, kind]
      · simp [entryList, roleShift, fourOnly, kind]
    · exact absurd hm List.not_mem_nil

/-- The roles of a kind take the same places for every select count that the kind's own count stands for. -/
theorem rolePlaces_count (e : List Byte) : rolePlaces (byteAt e 0 / 64) (max 1 (min 4 (fourOnly e (byteAt e 1 / 8 % 4) + 1)))
    = (roleHalves (byteAt e 0 / 64) (byteAt e 1 / 8 % 4 + 1)).map (· + roleShift (byteAt e 0 / 64)) := by
  rw [← rolePlaces_eq]
  by_cases kind : byteAt e 0 / 64 = 2
  · have count : max 1 (min 4 (fourOnly e (byteAt e 1 / 8 % 4) + 1)) = byteAt e 1 / 8 % 4 + 1 := by
      rw [fourOnly, if_pos kind]
      omega
    rw [count]
  · unfold rolePlaces
    rw [if_neg kind, if_neg kind]

theorem entryRefused_iff {e : List Byte} (h : e.length = 6) : ConfigRefused (entryConfig e) ↔ EntryRefused e := by
  have b0 := byteAt_lt e 0
  have b1 := byteAt_lt e 1
  have byte := byteAt_entryConfig h
  have places := rolePlaces_count e
  have roles : ∀ m ∈ roleHalves (byteAt e 0 / 64) (byteAt e 1 / 8 % 4 + 1),
      byteAt (entryConfig e) (13 + (m + roleShift (byteAt e 0 / 64))) = halfAt e m := fun m hm =>
    (byte _).trans (entryList_role hm)
  have fourLe (n k : Nat) (hn : n ≤ k) : ¬ k < fourOnly e n := by
    unfold fourOnly
    split <;> omega
  have c0 : byteAt (entryConfig e) 0 = byteAt e 0 / 64 := byte 0
  have c1 : byteAt (entryConfig e) 1 = widthOfCode (byteAt e 0 / 16 % 4) := byte 1
  have c2 : byteAt (entryConfig e) 2 = byteAt e 0 / 8 % 2 + 1 := byte 2
  have c3 : byteAt (entryConfig e) 3 = byteAt e 0 / 4 % 2 := byte 3
  have c6 : byteAt (entryConfig e) 6 = fourOnly e (byteAt e 1 / 64) := byte 6
  have c7 : byteAt (entryConfig e) 7 = fourOnly e (byteAt e 1 / 32 % 2) := byte 7
  have c8 : byteAt (entryConfig e) 8 = fourOnly e (byteAt e 1 / 8 % 4) + 1 := byte 8
  have c9 : byteAt (entryConfig e) 9 = fourOnly e (byteAt e 1 / 4 % 2) := byte 9
  have c10 : byteAt (entryConfig e) 10 = fourOnly e (byteAt e 1 % 4) := byte 10
  have width : widthOfCode (byteAt e 0 / 16 % 4) ∉ [1, 2, 4] ↔ byteAt e 0 / 16 % 4 = 3 := by
    have lt : byteAt e 0 / 16 % 4 < 4 := Nat.mod_lt _ (by decide)
    generalize byteAt e 0 / 16 % 4 = w at lt ⊢
    match w, lt with
    | 0, _ => decide
    | 1, _ => decide
    | 2, _ => decide
    | 3, _ => decide
  have address : byteAt e 0 / 8 % 2 + 1 ∈ [1, 2] := by
    rcases Nat.mod_two_eq_zero_or_one (byteAt e 0 / 8) with w | w <;> simp [w]
  have autoinc : 2 < fourOnly e (byteAt e 1 % 4) ↔ byteAt e 0 / 64 = 2 ∧ byteAt e 1 % 4 = 3 := by
    unfold fourOnly
    split <;> omega
  unfold ConfigRefused EntryRefused
  rw [c0, c1, c2, c3, c6, c7, c8, c9, c10, places]
  have inMap : ¬ ∃ n ∈ (roleHalves (byteAt e 0 / 64) (byteAt e 1 / 8 % 4 + 1)).map (· + roleShift (byteAt e 0 / 64)),
      15 < byteAt (entryConfig e) (13 + n) := by
    rintro ⟨n, hn, big⟩
    obtain ⟨m, hm, rfl⟩ := List.mem_map.1 hn
    rw [roles m hm] at big
    have := halfAt_lt e m
    omega
  have pairs : (∃ m ∈ (roleHalves (byteAt e 0 / 64) (byteAt e 1 / 8 % 4 + 1)).map (· + roleShift (byteAt e 0 / 64)),
      ∃ n ∈ (roleHalves (byteAt e 0 / 64) (byteAt e 1 / 8 % 4 + 1)).map (· + roleShift (byteAt e 0 / 64)),
        m ≠ n ∧ byteAt (entryConfig e) (13 + m) = byteAt (entryConfig e) (13 + n))
      ↔ ∃ m ∈ roleHalves (byteAt e 0 / 64) (byteAt e 1 / 8 % 4 + 1),
        ∃ n ∈ roleHalves (byteAt e 0 / 64) (byteAt e 1 / 8 % 4 + 1), m ≠ n ∧ halfAt e m = halfAt e n := by
    constructor
    · rintro ⟨_, inM, _, inN, apart, same⟩
      obtain ⟨m, hm, rfl⟩ := List.mem_map.1 inM
      obtain ⟨n, hn, rfl⟩ := List.mem_map.1 inN
      rw [roles m hm, roles n hn] at same
      exact ⟨m, hm, n, hn, fun h => apart (by rw [h]), same⟩
    · rintro ⟨m, hm, n, hn, apart, same⟩
      refine ⟨_, List.mem_map_of_mem hm, _, List.mem_map_of_mem hn, fun h => apart (Nat.add_right_cancel h), ?_⟩
      rw [roles m hm, roles n hn, same]
  have n0 : ¬ 3 < byteAt e 0 / 64 := by omega
  have n3 : ¬ 1 < byteAt e 0 / 4 % 2 := by omega
  have n6 := fourLe (byteAt e 1 / 64) 3 (by omega)
  have n7 := fourLe (byteAt e 1 / 32 % 2) 1 (by omega)
  have n9 := fourLe (byteAt e 1 / 4 % 2) 1 (by omega)
  rw [pairs]
  simp only [n0, n3, n6, n7, n9, inMap, width, address, autoinc, not_true_eq_false, or_false, false_or]
  exact or_left_comm

theorem entryList_select (e : List Byte) (n : Fin 4) : (entryList e).getD (16 + n.val) 0
    = if n.val < fourOnly e (byteAt e 1 / 8 % 4) + 1 then fourOnly e (halfAt e (1 + n.val)) else 0 := by
  match n with
  | 0 => rfl
  | 1 => rfl
  | 2 => rfl
  | 3 => rfl

theorem secondBit (b : Byte) : b.getLsbD 1 = decide (b.toNat / 2 % 2 = 1) := by
  simp [BitVec.getLsbD, Nat.testBit_eq_decide_div_mod_eq]

theorem entryGiven {e : List Byte} (h : e.length = 6) {c : LaneConfig} (hc : parseLaneConfig (entryConfig e) = some c) :
    EntryGiven e c := by
  have byte := byteAt_entryConfig h
  have accepted : ¬ EntryRefused e := fun refused => by
    rw [(parseLaneConfig_none (length_entryConfig h)).2 ((entryRefused_iff h).2 refused)] at hc
    cases hc
  have low (i : Nat) : ((entryConfig e).getD i 0).getLsbD 0 = decide ((entryList e).getD i 0 % 2 = 1) := by
    rw [← odd_iff_getLsbD, ← byte i]
    rfl
  obtain ⟨codes, w, a, activity, tenBit, mode, selects, latency, preamble, twoClock, twoData, fourClock, sel, cdat, tdat,
    mgmtClock, mgmtData⟩ := parseLaneConfig_given (length_entryConfig h) hc
  simp only [byte, low] at codes w a activity tenBit mode selects latency preamble twoClock twoData fourClock sel cdat tdat mgmtClock mgmtData
  have four (n k : Nat) (hn : n ≤ k) : fourOnly e n ≤ k := by
    unfold fourOnly
    split <;> omega
  have fourHalf (j : Nat) : fourOnly e (halfAt e j) < 16 := Nat.lt_succ_of_le (four _ 15 (Nat.le_of_lt_succ (halfAt_lt e j)))
  have gated {p : Prop} [Decidable p] {n : Nat} (hn : n < 16) : (if p then n else 0) < 16 := by
    split <;> omega
  have held {n : Nat} (hn : n < 16) : heldAs n = n := if_pos (Nat.le_of_lt_succ hn)
  rintro kind four' rfl rfl
  refine ⟨codes, w.trans ?_, a, activity.trans ?_, tenBit.trans ?_, mode, selects.trans ?_, latency.trans ?_, preamble.trans ?_,
    twoClock.trans ?_, twoData.trans ?_, fourClock.trans ?_, fun n => ?_, cdat.trans ?_, tdat.trans ?_, mgmtClock.trans ?_,
    mgmtData.trans ?_⟩
  · show (if byteAt e 0 / 64 = 3 then 2 else widthOfCode (byteAt e 0 / 16 % 4)) = _
    refine ite_congr rfl (fun _ => rfl) fun kind => ?_
    have lt : byteAt e 0 / 16 % 4 < 3 := by
      have notThree : byteAt e 0 / 16 % 4 ≠ 3 := fun code => accepted (.inl ⟨kind, code⟩)
      omega
    generalize byteAt e 0 / 16 % 4 = code at lt
    match code, lt with
    | 0, _ => rfl
    | 1, _ => rfl
    | 2, _ => rfl
  · show decide (byteAt e 0 / 2 % 2 % 2 = 1) = _
    rw [Nat.mod_mod]
    exact (secondBit _).symm
  · show decide ((if byteAt e 0 / 64 = 1 then byteAt e 1 % 2 else 0) % 2 = 1) = _
    by_cases kind : byteAt e 0 / 64 = 1
    · rw [if_pos kind, Nat.mod_mod, decide_eq_true kind]
      exact odd_iff_getLsbD _
    · simp [kind]
  · show max 1 (min 4 (fourOnly e (byteAt e 1 / 8 % 4) + 1)) = fourOnly e (byteAt e 1 / 8 % 4) + 1
    have := four (byteAt e 1 / 8 % 4) 3 (by omega)
    omega
  · show min 3 (fourOnly e (halfAt e 7)) = fourOnly e (min 3 (halfAt e 7))
    unfold fourOnly
    split <;> rfl
  · show min 32 (if byteAt e 0 / 64 = 3 then byteAt e 1 else 32) = _
    split <;> rfl
  · exact held (gated (halfAt_lt e 0))
  · exact held (gated (halfAt_lt e 1))
  · exact held (fourHalf 0)
  · have entry : (entryList e).getD (16 + n.val) 0
        = if n.val < fourOnly e (byteAt e 1 / 8 % 4) + 1 then fourOnly e (halfAt e (1 + n.val)) else 0 := entryList_select e n
    have count : c.selectCount = fourOnly e (byteAt e 1 / 8 % 4) + 1 := by
      have := four (byteAt e 1 / 8 % 4) 3 (by omega)
      rw [selects]
      show max 1 (min 4 (fourOnly e (byteAt e 1 / 8 % 4) + 1)) = _
      omega
    have small : (entryList e).getD (16 + n.val) 0 < 16 := by
      rw [entry]
      exact gated (fourHalf _)
    rw [sel n (.inl (Nat.le_of_lt_succ small)), held small, entry, count]
    rfl
  · exact held (fourHalf 5)
  · exact held (fourHalf 6)
  · exact held (gated (halfAt_lt e 0))
  · exact held (gated (halfAt_lt e 1))

/-! ### Trap windows and rows -/

theorem entryTrap_iff {e : List Byte} (h : e.length = 6) (t : Trap) : entryTrap e = some t ↔
    trapModeCode t.mode = byteAt e 0 / 64 ∧ trapDirCode t.dir = byteAt e 0 / 16 % 4 ∧ t.lane.val = byteAt e 0 / 4 % 4
      ∧ t.target.toNat = byteAt e 0 % 4 * 256 + byteAt e 1 ∧ t.low = byteAt e 2 * 256 + byteAt e 3
      ∧ t.high = byteAt e 4 * 256 + byteAt e 5 ∧ t.low ≤ t.high
      ∧ t.count = 0 ∧ t.first = none ∧ t.clearNote = none := by
  have b0 := byteAt_lt e 0
  have b1 := byteAt_lt e 1
  have word : natAt e 0 2 = byteAt e 0 * 256 + byteAt e 1 := natAt_two (by omega)
  have low : natAt e 2 2 = byteAt e 2 * 256 + byteAt e 3 := natAt_two (by omega)
  have high : natAt e 4 2 = byteAt e 4 * 256 + byteAt e 5 := natAt_two (by omega)
  have mode : field (natAt e 0 2) 14 2 = byteAt e 0 / 64 := by rw [word, field_eq]; omega
  have dir : field (natAt e 0 2) 12 2 = byteAt e 0 / 16 % 4 := by rw [word, field_eq]; omega
  have lane : field (natAt e 0 2) 10 2 = byteAt e 0 / 4 % 4 := by rw [word, field_eq]; omega
  have target : field (natAt e 0 2) 0 10 = byteAt e 0 % 4 * 256 + byteAt e 1 := by rw [word, field_eq]; omega
  rw [entryTrap, mode, dir, lane, target, low, high]
  constructor
  · intro ht
    unfold trapOf at ht
    split at ht
    · next m l d hm hl hd =>
      split at ht
      · next inside =>
        cases ht
        have held : (BitVec.ofNat 10 (byteAt e 0 % 4 * 256 + byteAt e 1)).toNat = byteAt e 0 % 4 * 256 + byteAt e 1 := by
          rw [BitVec.toNat_ofNat]
          exact Nat.mod_eq_of_lt (by omega)
        exact ⟨(trapMode_ofCode_iff.1 hm).symm, (trapDir_ofCode_iff.1 hd).symm, (laneOf_val.1 hl).symm,
          held, rfl, rfl, inside.2, rfl, rfl, rfl⟩
      · cases ht
    · cases ht
  · obtain ⟨m, l, tg, lo, hi, d, count, first, note⟩ := t
    rintro ⟨hm, hd, hl, ht, hlow, hhigh, hr, hcount, hfirst, hnote⟩
    simp only at hm hd hl ht hlow hhigh hr hcount hfirst hnote
    rw [← ht, ← hlow, ← hhigh, trapOf_accepted hm.symm hl.symm hd.symm (by omega) hr, hcount, hfirst, hnote]
    simp

theorem rowCode_eq {e : List Byte} (h : e.length = 4) : rowCode e = byteAt e 0 / 4 % 16 := by
  have b1 := byteAt_lt e 1
  have number : natAt e 0 2 = byteAt e 0 * 256 + byteAt e 1 := natAt_two (by omega)
  rw [rowCode, number, field_eq]
  omega

end Sys2Proof.Machine
end

section
/-! PROOF. The settings block (R190): what each of its items writes, the unit, and the completion that may follow. -/

namespace Sys2Proof.Machine

/-! ### What an offer leaves of a lane and of the power chain -/

theorem decodes_laneChange (i : Fin 4) (before after : Levels) (l : Lane) : Decodes i l (laneChange i before after l).lane := by
  unfold laneChange
  split
  · exact .refl i l
  · split
    · exact .refl i l
    · next hk => exact decodes_twoWireChange hk before after
    · exact decodes_fourWireChange before after l
    · next hk => exact decodes_managementChange hk before after

theorem decodes_movePfe (x : Pfe) (s : State) (i : Fin 4) : Decodes i s.lanes[i] (movePfe x s).lanes[i] := by
  cases h : lanesStopped (s.setPfe x) with
  | true =>
    have same : movePfe x s = s.setPfe x := offer_stopped h
    rw [same]
    exact .refl i _
  | false =>
    have reads : (movePfe x s).lanes[i] = (laneChange i s.pfe.levels x.levels s.lanes[i]).lane := offer_lanes h i
    rw [reads]
    exact decodes_laneChange i _ _ _

/-- No lane is an activity source (R35). -/
def noActivitySource (s : State) : Prop := ∀ i : Fin 4, (s.lanes[i]).cfg.activity = false

theorem offerTo_quiet {s : State} (h : noActivitySource s) (before after : Levels) (i : Fin 4) :
    (offerTo before after s i).pwu = s.pwu ∧ noActivitySource (offerTo before after s i) := by
  have cfg : (laneChange i before after s.lanes[i]).lane.cfg = (s.lanes[i]).cfg := (decodes_laneChange i before after _).cfg
  have none : ((laneChange i before after s.lanes[i]).completed && (laneChange i before after s.lanes[i]).lane.cfg.activity)
      = false := by rw [cfg, h i, Bool.and_false]
  have effects : offerTo before after s i = raiseIf (flagRose (s.lanes[i]).flags (laneChange i before after s.lanes[i]).lane.flags)
      .lane (s.setLane i (laneChange i before after s.lanes[i]).lane) := by
    unfold offerTo laneEffects
    dsimp only
    rw [none]
    rfl
  rw [effects, raiseIf_eq]
  refine ⟨rfl, fun j => ?_⟩
  show ((s.lanes.set i (laneChange i before after s.lanes[i]).lane)[j]).cfg.activity = false
  by_cases hj : i = j
  · subst hj
    have set : (s.lanes.set i (laneChange i before after s.lanes[i]).lane)[i] = (laneChange i before after s.lanes[i]).lane :=
      Vector.getElem_set_self i.isLt
    rw [set, cfg, h i]
  · have apart : i.val ≠ j.val := fun e => hj (Fin.ext e)
    simpa [Vector.getElem_set, apart] using h j

theorem movePfe_quiet {s : State} (h : noActivitySource s) (x : Pfe) : (movePfe x s).pwu = s.pwu := by
  have walk (before after : Levels) (is : List (Fin 4)) (t : State) (ht : noActivitySource t) :
      (is.foldl (offerTo before after) t).pwu = t.pwu := by
    induction is generalizing t with
    | nil => rfl
    | cons i is ih => exact (ih _ (offerTo_quiet ht before after i).2).trans (offerTo_quiet ht before after i).1
  unfold movePfe offer
  split
  · rfl
  · exact walk _ _ _ (s.setPfe x) h

theorem activityIf_undeferred {s : State} (b : Bool) (h : s.pwu.deferred = false) : (activityIf b s).pwu.deferred = false := by
  cases b with
  | false => exact h
  | true =>
    unfold activityIf activity abortSleepEntry
    have on (t : State) : (panelTurnOn t).pwu = t.pwu := by
      unfold panelTurnOn
      split <;> rfl
    have moves (p : PowerState) (t : State) : (refreshTimerMoves p t).pwu = t.pwu := by
      unfold refreshTimerMoves
      split <;> rfl
    rw [if_pos rfl]
    split
    · rw [on]
      rfl
    · split
      · rfl
      · rw [moves]
        rfl
      · rw [on]
        rfl
      · exact h

theorem movePfe_undeferred {s : State} (x : Pfe) (h : s.pwu.deferred = false) : (movePfe x s).pwu.deferred = false := by
  have turn (before after : Levels) (t : State) (i : Fin 4) (ht : t.pwu.deferred = false) :
      (offerTo before after t i).pwu.deferred = false := by
    refine activityIf_undeferred _ ?_
    rw [raiseIf_eq]
    exact ht
  have walk (before after : Levels) (is : List (Fin 4)) (t : State) (ht : t.pwu.deferred = false) :
      (is.foldl (offerTo before after) t).pwu.deferred = false := by
    induction is generalizing t with
    | nil => exact ht
    | cons i is ih => exact ih _ (turn before after t i ht)
  unfold movePfe offer
  split
  · exact h
  · exact walk _ _ _ (s.setPfe x) h

/-! ### Items that write one place of a vector -/

/-- A walk that writes each place it visits once. -/
theorem foldl_modifyAt {α : Type} {n : Nat} (f : Fin n → α → α) {is : List (Fin n)} (hn : is.Nodup) (v : Vector α n) (j : Fin n) :
    (is.foldl (fun v i => modifyAt v i (f i)) v)[j] = if j ∈ is then f j v[j] else v[j] := by
  induction is generalizing v with
  | nil => simp
  | cons i is ih =>
    obtain ⟨fresh, rest⟩ := List.nodup_cons.1 hn
    rw [List.foldl_cons, ih rest, modifyAt_get]
    by_cases hj : i = j
    · subst hj
      simp [fresh]
    · simp [hj, Ne.symm hj]

theorem modifyAt_id {α : Type} {n : Nat} (v : Vector α n) (i : Fin n) : modifyAt v i id = v := by
  ext j hj
  have := modifyAt_get v i ⟨j, hj⟩ id
  simp only [Fin.getElem_fin, id] at this
  rw [this]
  split
  · next h => rw [h]
  · rfl

theorem modifyAt_modifyAt {α : Type} {n : Nat} (v : Vector α n) (i : Fin n) (f g : α → α) :
    modifyAt (modifyAt v i f) i g = modifyAt v i (g ∘ f) := by
  simp [modifyAt]

theorem modifyAt_eq {α : Type} {n : Nat} (v : Vector α n) (i : Fin n) {f g : α → α} (h : f v[i] = g v[i]) :
    modifyAt v i f = modifyAt v i g := by
  rw [modifyAt, modifyAt, h]

/-! ### The items -/

/-- What item 2 makes of a lane (R190). -/
def laneItem (block : List Byte) (lv : Levels) (i : Fin 4) (l : Lane) : Lane :=
  (parseLaneConfig (entryConfig (bytesAt block (4 + 6 * i.val) 6))).elim l fun c =>
    { ({ l with cfg := c }).restart (reconfigureRequest l.cfg c) lv with
      enabled := decide (field (byteAt (bytesAt block (4 + 6 * i.val) 6) 0) 0 1 = 1) }.restart .marking lv

theorem settingsLane_eq (block : List Byte) (i : Fin 4) (s : State) :
    settingsLane block i s = s.setLanes (modifyAt s.lanes i (laneItem block s.pfe.levels i)) := by
  unfold settingsLane tryItem
  dsimp only
  cases hc : parseLaneConfig (entryConfig (bytesAt block (4 + 6 * i.val) 6)) with
  | none =>
    have same : modifyAt s.lanes i (laneItem block s.pfe.levels i) = modifyAt s.lanes i id :=
      modifyAt_eq _ _ (by rw [laneItem, hc]; rfl)
    rw [same, modifyAt_id]
    rfl
  | some c =>
    have both : modifyAt s.lanes i (laneItem block s.pfe.levels i) = modifyAt (modifyAt s.lanes i fun l =>
        ({ l with cfg := c }).restart (reconfigureRequest (s.lanes[i]).cfg c) s.pfe.levels) i fun l =>
        ({ l with enabled := decide (field (byteAt (bytesAt block (4 + 6 * i.val) 6) 0) 0 1 = 1) }).restart .marking
          s.pfe.levels := by
      rw [modifyAt_modifyAt]
      exact modifyAt_eq _ _ (by rw [laneItem, hc]; rfl)
    rw [both]
    rfl

/-- What item 3 makes of a window (R190). -/
def trapItem (block : List Byte) (i : Fin 4) (t : Trap) : Trap := (entryTrap (bytesAt block (28 + 6 * i.val) 6)).getD t

theorem settingsTrap_eq (block : List Byte) (i : Fin 4) (s : State) :
    settingsTrap block i s = s.setWta { s.wta with traps := modifyAt s.wta.traps i (trapItem block i) } := by
  unfold settingsTrap tryItem
  cases hc : entryTrap (bytesAt block (28 + 6 * i.val) 6) with
  | none =>
    have same : modifyAt s.wta.traps i (trapItem block i) = modifyAt s.wta.traps i id :=
      modifyAt_eq _ _ (by rw [trapItem, hc]; rfl)
    rw [same, modifyAt_id]
    rfl
  | some t =>
    have set : modifyAt s.wta.traps i (trapItem block i) = modifyAt s.wta.traps i fun _ => t :=
      modifyAt_eq _ _ (by rw [trapItem, hc]; rfl)
    rw [set]
    rfl

/-- What item 4 makes of a row, with hold in force or not (R153, R190). -/
def rowItem (block : List Byte) (hold : Bool) (i : Fin 16) (r : Row) : Row :=
  match bindingOf (rowCode (bytesAt block (52 + 4 * i.val) 4) / 3) (bytesAt block (52 + 4 * i.val) 4),
    Format.ofCode (rowCode (bytesAt block (52 + 4 * i.val) 4) % 3) with
  | some x, some f => ⟨x, f, r.rebound || hold⟩
  | _, _ => r

theorem settingsRow_eq (block : List Byte) (i : Fin 16) (s : State) :
    settingsRow block i s = s.setDse { s.dse with rows := modifyAt s.dse.rows i (rowItem block s.rte.hold i) } := by
  unfold settingsRow tryItem
  dsimp only
  have kept (h : rowItem block s.rte.hold i s.dse.rows[i] = s.dse.rows[i]) :
      s = s.setDse { s.dse with rows := modifyAt s.dse.rows i (rowItem block s.rte.hold i) } := by
    have same : modifyAt s.dse.rows i (rowItem block s.rte.hold i) = modifyAt s.dse.rows i id := modifyAt_eq _ _ h
    rw [same, modifyAt_id]
    rfl
  cases hb : bindingOf (rowCode (bytesAt block (52 + 4 * i.val) 4) / 3) (bytesAt block (52 + 4 * i.val) 4) with
  | none =>
    rw [viewSet, rowOf_val, hb]
    exact kept (by rw [rowItem, hb])
  | some b =>
    cases hf : Format.ofCode (rowCode (bytesAt block (52 + 4 * i.val) 4) % 3) with
    | none =>
      rw [viewSet, rowOf_val, hb, hf]
      exact kept (by rw [rowItem, hb, hf])
    | some f =>
      have set : modifyAt s.dse.rows i (rowItem block s.rte.hold i)
          = modifyAt s.dse.rows i fun r => ⟨b, f, r.rebound || s.rte.hold⟩ := modifyAt_eq _ _ (by rw [rowItem, hb, hf])
      rw [set, viewSet_accepted s hb hf]
      rfl

/-! ### The banks, the power settings and the enables -/

/-- The Probe Front End with the banks of a settings block (R17, R190). -/
def Pfe.settingsBanks (block : List Byte) (x : Pfe) : Pfe :=
  (x.withBanks [bankItem block 0, bankItem block 1]).filterWhere fun i =>
    [bankItem block 0, bankItem block 1].any fun r => r.bank = bankOf i

theorem settingsBanks_get (block : List Byte) (x : Pfe) (n : Fin 2) : (x.settingsBanks block).banks[n]
    = ⟨max 10 (min 250 (byteAt block (2 * n.val))), min 15 (byteAt block (2 * n.val + 1))⟩ := by
  have code (c : Nat) : thresholdCode (20 * c) = max 10 (min 250 c) := by
    have : (20 * c + 10) / 20 = c := by omega
    rw [thresholdCode, this]
  have banks : (x.settingsBanks block).banks
      = ((x.qualify x.due).banks.set 0 ⟨thresholdCode (20 * byteAt block 0), min 15 (byteAt block 1)⟩).set 1
        ⟨thresholdCode (20 * byteAt block 2), min 15 (byteAt block 3)⟩ := rfl
  rw [banks, code, code]
  match n with
  | 0 => simp
  | 1 => simp

/-- The wake edges of a settings block, four in a byte (R200). -/
def settingsEdges (b : List Byte) : Vector WakeEdge 16 := Vector.ofFn fun n =>
  match byteAt b (119 + n.val / 4) / 4 ^ (3 - n.val % 4) % 4 with
  | 0 => .none
  | 1 => .rising
  | 2 => .falling
  | _ => .either

/-- The operand bytes of the POWER-SET of a settings block, as numbers (R190, R200). -/
def settingsPowerList (b : List Byte) : List Nat :=
  [0, byteAt b 116, 0, byteAt b 117, 0, byteAt b 118]
    ++ [byteAt b 119 / 64 % 4, byteAt b 119 / 16 % 4, byteAt b 119 / 4 % 4, byteAt b 119 / 1 % 4]
    ++ [byteAt b 120 / 64 % 4, byteAt b 120 / 16 % 4, byteAt b 120 / 4 % 4, byteAt b 120 / 1 % 4]
    ++ [byteAt b 121 / 64 % 4, byteAt b 121 / 16 % 4, byteAt b 121 / 4 % 4, byteAt b 121 / 1 % 4]
    ++ [byteAt b 122 / 64 % 4, byteAt b 122 / 16 % 4, byteAt b 122 / 4 % 4, byteAt b 122 / 1 % 4]
    ++ [byteAt b 124 / 16 % 2, byteAt b 124 / 32 % 2, byteAt b 124 / 64 % 2]

theorem settingsPower_eq {b : List Byte} (h : b.length = 128) : settingsPower b = (settingsPowerList b).map byteOf := by
  have timer (i : Nat) : beBytes 2 (byteAt b i) = [byteOf 0, byteOf (byteAt b i)] := by
    have := byteAt_lt b i
    rw [beBytes_two, twoBytes, Nat.div_eq_of_lt this]
    rfl
  have edges : bytesAt b 119 4 = [b.getD 119 0, b.getD 120 0, b.getD 121 0, b.getD 122 0] := by
    have hl : (bytesAt b 119 4).length = 4 := length_bytesAt (by omega)
    refine List.ext_getElem? fun i => ?_
    rcases Nat.lt_or_ge i 4 with hi | hi
    · rw [bytesAt_getElem? hi]
      match i, hi with
      | 0, _ | 1, _ | 2, _ | 3, _ => simp [h]
    · rw [List.getElem?_eq_none (by omega), List.getElem?_eq_none (by simpa using hi)]
  rw [settingsPower, timer, timer, timer, edges]
  rfl

theorem byteAt_settingsPower {b : List Byte} (h : b.length = 128) (i : Nat) :
    byteAt (settingsPower b) i = (settingsPowerList b).getD i 0 := by
  have bound : ∀ n ∈ settingsPowerList b, n < 256 := by
    have b116 := byteAt_lt b 116
    have b117 := byteAt_lt b 117
    have b118 := byteAt_lt b 118
    intro n hn
    simp only [settingsPowerList, List.cons_append, List.nil_append, List.mem_cons, List.not_mem_nil, or_false] at hn
    omega
  rw [settingsPower_eq h, byteAt, List.getD_eq_getElem?_getD, List.getD_eq_getElem?_getD, List.getElem?_map]
  cases hn : (settingsPowerList b)[i]? with
  | none => rfl
  | some n =>
    show (byteOf n).toNat = n
    have := bound n (List.mem_of_getElem? hn)
    rw [byteOf, BitVec.toNat_ofNat]
    exact Nat.mod_eq_of_lt this

/-- The power settings of a settings block (R190). -/
def settingsValues (b : List Byte) : PowerSettings :=
  ⟨byteAt b 116, byteAt b 117, byteAt b 118, settingsEdges b, (b.getD 124 0).getLsbD 4, (b.getD 124 0).getLsbD 5,
    (b.getD 124 0).getLsbD 6⟩

theorem parsePower_settings {b : List Byte} (h : b.length = 128) :
    parsePower (settingsPower b) = some (settingsValues b) := by
  have at' := byteAt_settingsPower h
  have length : (settingsPower b).length = 25 := by rw [settingsPower_eq h]; rfl
  have edges (n : Fin 16) : byteAt (settingsPower b) (6 + n.val) = ((settingsEdges b)[n]).code := by
    have entry : (settingsPowerList b).getD (6 + n.val) 0 = byteAt b (119 + n.val / 4) / 4 ^ (3 - n.val % 4) % 4 := by
      fin_cases n <;> rfl
    have edge : (settingsEdges b)[n] = _ := Vector.getElem_ofFn n.isLt
    have small : byteAt b (119 + n.val / 4) / 4 ^ (3 - n.val % 4) % 4 < 4 := Nat.mod_lt _ (by decide)
    rw [at', entry, edge]
    dsimp only
    generalize byteAt b (119 + n.val / 4) / 4 ^ (3 - n.val % 4) % 4 = x at small ⊢
    match x, small with
    | 0, _ | 1, _ | 2, _ | 3, _ => rfl
  have timer (i : Nat) (n : Nat) (hi : i + 2 ≤ 25) (h0 : byteAt (settingsPower b) i = 0)
      (h1 : byteAt (settingsPower b) (i + 1) = n) (hn : n < 256) : min 255 (natAt (settingsPower b) i 2) = n := by
    rw [natAt_two (by omega), h0, h1]
    omega
  have bit (k : Nat) : decide (byteAt b 124 / 2 ^ k % 2 = 1) = (b.getD 124 0).getLsbD k := by
    rw [BitVec.getLsbD, Nat.testBit_eq_decide_div_mod_eq]
    rfl
  rw [parsePower_some (by omega) edges (by rw [at']; exact Nat.le_of_lt_succ (Nat.mod_lt _ (by decide)))
    (by rw [at']; exact Nat.le_of_lt_succ (Nat.mod_lt _ (by decide)))
    (by rw [at']; exact Nat.le_of_lt_succ (Nat.mod_lt _ (by decide))),
    timer 0 (byteAt b 116) (by decide) (at' 0) (at' 1) (byteAt_lt b _),
    timer 2 (byteAt b 117) (by decide) (at' 2) (at' 3) (byteAt_lt b _),
    timer 4 (byteAt b 118) (by decide) (at' 4) (at' 5) (byteAt_lt b _), at' 22, at' 23, at' 24]
  exact congrArg some (congr (congr (congrArg _ (bit 4)) (bit 5)) (bit 6))

/-- The attention enables that a settings block leaves (R190). -/
def settingsEnables (b : List Byte) (present : BitVec 9) : BitVec 9 :=
  if natAt b 125 2 < 512 then BitVec.ofNat 9 (natAt b 125 2) else present

theorem settingsEnables_eq {b : List Byte} (h : b.length = 128) (s : State) :
    tryItem (attnEnable (bytesAt b 125 2)) s = s.setWta { s.wta with enables := settingsEnables b s.wta.enables } := by
  have number : natAt (bytesAt b 125 2) 0 2 = natAt b 125 2 := by
    rw [natAt, bytesAt_all (length_bytesAt (by omega))]
    rfl
  unfold tryItem attnEnable settingsEnables
  by_cases hn : natAt b 125 2 < 512
  · rw [maskOf_accepted (number ▸ hn), if_pos hn, number]
    rfl
  · rw [maskOf_refused (number ▸ Nat.not_lt.1 hn), if_neg hn]
    rfl

/-! ### The block as a whole -/

/-- The items of a settings block but for the banks, applied (R190). -/
def settingsApplied (b : List Byte) (u : State) : State :=
  { u with
    lanes := Vector.ofFn fun i => laneItem b u.pfe.levels i u.lanes[i]
    wta := { u.wta with
      traps := Vector.ofFn fun i => trapItem b i u.wta.traps[i]
      enables := settingsEnables b u.wta.enables }
    dse := { u.dse with
      rows := Vector.ofFn fun i => rowItem b u.rte.hold i u.dse.rows[i]
      window := byteAt b 124 % 16, runLevel := byteAt b 123 / 16, dimLevel := byteAt b 123 % 16 }
    pwu := u.pwu.apply (settingsValues b) }

/-- A walk over every place, each written once. -/
theorem foldl_everywhere {α : Type} {n : Nat} (f : Fin n → α → α) {is : List (Fin n)} (hn : is.Nodup) (all : ∀ i, i ∈ is)
    (v : Vector α n) : is.foldl (fun v i => modifyAt v i (f i)) v = Vector.ofFn fun i => f i v[i] := by
  ext j hj
  have place := foldl_modifyAt f hn v ⟨j, hj⟩
  rw [if_pos (all _)] at place
  exact place.trans (by simp)

theorem settingsLanes_eq (b : List Byte) (s : State) : ([0, 1, 2, 3] : List (Fin 4)).foldl (fun s i => settingsLane b i s) s
    = s.setLanes (Vector.ofFn fun i => laneItem b s.pfe.levels i s.lanes[i]) := by
  have walk : ([0, 1, 2, 3] : List (Fin 4)).foldl (fun s i => settingsLane b i s) (s.setLanes s.lanes)
      = s.setLanes (([0, 1, 2, 3] : List (Fin 4)).foldl (fun v i => modifyAt v i (laneItem b s.pfe.levels i)) s.lanes) :=
    List.foldl_hom s.setLanes fun v i => settingsLane_eq b i (s.setLanes v)
  rw [foldl_everywhere _ (by decide) (by decide)] at walk
  exact walk

theorem settingsTraps_eq (b : List Byte) (s : State) : ([0, 1, 2, 3] : List (Fin 4)).foldl (fun s i => settingsTrap b i s) s
    = s.setWta { s.wta with traps := Vector.ofFn fun i => trapItem b i s.wta.traps[i] } := by
  have walk : ([0, 1, 2, 3] : List (Fin 4)).foldl (fun s i => settingsTrap b i s) (s.setWta { s.wta with traps := s.wta.traps })
      = s.setWta { s.wta with
        traps := ([0, 1, 2, 3] : List (Fin 4)).foldl (fun v i => modifyAt v i (trapItem b i)) s.wta.traps } :=
    List.foldl_hom (fun v => s.setWta { s.wta with traps := v }) fun v i =>
      settingsTrap_eq b i (s.setWta { s.wta with traps := v })
  rw [foldl_everywhere _ (by decide) (by decide)] at walk
  exact walk

theorem settingsRows_eq (b : List Byte) (s : State) : probeNumbers.foldl (fun s i => settingsRow b i s) s
    = s.setDse { s.dse with rows := Vector.ofFn fun i => rowItem b s.rte.hold i s.dse.rows[i] } := by
  have walk : probeNumbers.foldl (fun s i => settingsRow b i s) (s.setDse { s.dse with rows := s.dse.rows })
      = s.setDse { s.dse with
        rows := probeNumbers.foldl (fun v i => modifyAt v i (rowItem b s.rte.hold i)) s.dse.rows } :=
    List.foldl_hom (fun v => s.setDse { s.dse with rows := v }) fun v i =>
      settingsRow_eq b i (s.setDse { s.dse with rows := v })
  rw [foldl_everywhere _ (by decide) (by decide)] at walk
  exact walk

theorem settingsPanel_eq (b : List Byte) (s : State) : settingsPanel b s = s.setDse { s.dse with
    window := byteAt b 124 % 16, runLevel := byteAt b 123 / 16, dimLevel := byteAt b 123 % 16 } := by
  have levels := byteAt_lt b 123
  have window : min 15 (field (byteAt b 124) 0 4) = byteAt b 124 % 16 := by rw [field_eq]; omega
  have run : min 15 (field (byteAt b 123) 4 4) = byteAt b 123 / 16 := by rw [field_eq]; omega
  have dim : min 15 (field (byteAt b 123) 0 4) = byteAt b 123 % 16 := by rw [field_eq]; omega
  rw [settingsPanel, viewOptions, panelSet, window, run, dim]
  rfl

theorem applySettings_eq {b : List Byte} (h : b.length = 128) (s : State) :
    applySettings b s = settingsApplied b (movePfe (s.pfe.settingsBanks b) s) := by
  have power (t : State) : tryItem (powerSet (settingsPower b)) t = t.setPwu (t.pwu.apply (settingsValues b)) := by
    rw [tryItem, powerSet, parsePower_settings h]
    rfl
  have banks : applyBanks [bankItem b 0, bankItem b 1] s = movePfe (s.pfe.settingsBanks b) s := rfl
  rw [applySettings, banks, settingsLanes_eq, settingsTraps_eq, settingsRows_eq, settingsPanel_eq, settingsPower8, power,
    settingsEnables_eq h]
  rfl

/-! ### The load goes on, or completes -/

/-- `t` is `s` after a load has gone on or completed: the profile operation and what a completion tells, PROFILE and the panel
(R187, R189). -/
structure WentOn (s t : State) : Prop where
  pfe : t.pfe = s.pfe
  lanes : t.lanes = s.lanes
  rte : t.rte = s.rte
  wta : t.wta = { s.wta with causes := t.wta.causes }
  dse : t.dse = { s.dse with
    panelOn := t.dse.panelOn, refreshTimer := t.dse.refreshTimer, refresh := t.dse.refresh, port := t.dse.port }
  pwu : t.pwu = s.pwu

theorem loadCompleted_plain {l : Load} {s : State} (v : Validity) (hd : s.pwu.deferred = false)
    (hw : l.scope = .startUp → ∀ w ∈ s.ctl.waiting, ownerOf w.cmd w.operands ≠ .ctl) :
    WentOn s (loadCompleted l v s)
      ∧ (loadCompleted l v s).pim = { s.pim with op := .none, last := some (.load l.scope v l.loaded l.skipped) }
      ∧ (loadCompleted l v s).wta.causes.getLsbD 6 = true
      ∧ (loadCompleted l v s).ctl = if l.scope = .startUp then
          { s.ctl with record := ⟨s.ctl.record.cause, v, l.loaded, l.skipped⟩ } else s.ctl := by
  have raised (x : BitVec 9) : (x ||| 0x040).getLsbD 6 = true := by rw [BitVec.getLsbD_or]; simp
  have done (t : State) (ht : t.pwu.deferred = false) (last : LastOutcome) : profileCompleted last t = { t with
      pim := { t.pim with op := .none, last := some last }, wta := { t.wta with causes := t.wta.causes ||| 0x040 } } := by
    rw [profileCompleted, ht]
    rfl
  unfold loadCompleted
  by_cases hs : l.scope = .startUp
  · have none : ∀ w ∈ s.ctl.waiting, decide (w.cmd = .release) = false := fun w hwm => decide_eq_false fun h =>
      hw hs w hwm (by rw [h]; rfl)
    dsimp only
    rw [if_pos hs, if_pos hs,
      answeredCtl_none (c := { s.ctl with record := ⟨s.ctl.record.cause, v, l.loaded, l.skipped⟩ }) none, done _ (by exact hd)]
    refine ⟨⟨rfl, rfl, rfl, rfl, ?_, rfl⟩, by rw [hs], raised _, rfl⟩
    dsimp only
    split
    · rfl
    · split
      · rfl
      · split <;> rfl
  · dsimp only
    rw [if_neg hs, if_neg hs, done s hd]
    exact ⟨⟨rfl, rfl, rfl, rfl, rfl, rfl⟩, rfl, raised _, rfl⟩

theorem seedsGoOn_wentOn {l : Load} {s : State} (h : s.pim.flash.seedCount ≤ l.next → s.pwu.deferred = false
    ∧ (l.scope = .startUp → ∀ w ∈ s.ctl.waiting, ownerOf w.cmd w.operands ≠ .ctl)) : WentOn s (seedsGoOn l s) := by
  unfold seedsGoOn
  split
  · exact ⟨rfl, rfl, rfl, rfl, rfl, rfl⟩
  · next hn =>
    obtain ⟨hd, hw⟩ := h (Nat.not_lt.1 hn)
    exact (loadCompleted_plain .valid hd hw).1

/-- A lane item whose entry is accepted, spelled out (R20, R21, R31, R190). -/
theorem laneItem_accepted {b : List Byte} {i : Fin 4} {c : LaneConfig} (lv : Levels) (l : Lane)
    (hc : parseLaneConfig (entryConfig (bytesAt b (4 + 6 * i.val) 6)) = some c) :
    laneItem b lv i l = { l with
      cfg := c, enabled := (b.getD (4 + 6 * i.val) 0).getLsbD 0
      two := ⟨[], none, .address, none⟩, four := ⟨false, [], [], 0, .command []⟩, mgmt := ⟨0, false, .operation []⟩
      pointers := [], slot := none
      state :=
        if (b.getD (4 + 6 * i.val) 0).getLsbD 0 = false ∨ c.kind = .none then .off
        else if c.kind = .fourWire ∧ ∀ n : Fin 4, n.val < c.selectCount → lv (c.pins.sel[n]) = true then .idle
        else .seeking
      request := some (if l.request = some .retirement ∨ l.cfg.kind ≠ c.kind ∨ l.cfg.w ≠ c.w ∨ l.cfg.a ≠ c.a then
        .retirement else .marking) } := by
  have enable : decide (field (byteAt (bytesAt b (4 + 6 * i.val) 6) 0) 0 1 = 1) = (b.getD (4 + 6 * i.val) 0).getLsbD 0 := by
    rw [byteAt_bytesAt (by decide), field_eq, Nat.pow_zero, Nat.div_one]
    exact odd_iff_getLsbD _
  have merged : (if (some (if l.request = some .retirement ∨ reconfigureRequest l.cfg c = .retirement then LaneRequest.retirement
      else .marking)) = some LaneRequest.retirement ∨ LaneRequest.marking = .retirement then LaneRequest.retirement else .marking)
      = if l.request = some .retirement ∨ l.cfg.kind ≠ c.kind ∨ l.cfg.w ≠ c.w ∨ l.cfg.a ≠ c.a then .retirement
        else .marking := by
    unfold reconfigureRequest
    by_cases changed : l.cfg.kind ≠ c.kind ∨ l.cfg.w ≠ c.w ∨ l.cfg.a ≠ c.a
    · simp only [changed, if_true, or_true]
      rfl
    · simp only [changed, if_false]
      split <;> simp_all
  rw [laneItem, hc]
  dsimp only [Option.elim]
  rw [restart_eq, restart_eq, enable]
  dsimp only
  rw [merged]

theorem laneItem_refused {b : List Byte} {i : Fin 4} (lv : Levels) (l : Lane)
    (hc : parseLaneConfig (entryConfig (bytesAt b (4 + 6 * i.val) 6)) = none) : laneItem b lv i l = l := by
  rw [laneItem, hc]
  rfl

/-- Settles O40: the entries by `entryRefused_iff`, `entryGiven`, `entryTrap_iff` and `rowCode_eq`, the items by
`applySettings_eq`, the completion by `loadCompleted_plain`. -/
theorem settingsBlockWritesTheItems : Obligations.SettingsBlockWritesTheItems := by
  refine ⟨fun e => ⟨fun h => ⟨(parseLaneConfig_none (length_entryConfig h)).trans (entryRefused_iff h), fun c => entryGiven h⟩,
    fun h => entryTrap_iff h, rowCode_eq⟩, ?_⟩
  rintro s l b ⟨running, hop⟩ hst hs hlaw hb
  have length : b.length = 128 := by rw [hb]; simp [Flash.readAll]
  obtain ⟨u, hu⟩ : ∃ u, movePfe (s.pfe.settingsBanks b) s = u := ⟨_, rfl⟩
  obtain ⟨v, hv⟩ : ∃ v, settingsApplied b u = v := ⟨_, rfl⟩
  obtain ⟨t, ht⟩ : ∃ t, seedsGoOn { l with stage := .seeding } v = t := ⟨_, rfl⟩
  have offered : Offered (s.setPfe (s.pfe.settingsBanks b)) u := hu ▸ offered_movePfe _ s
  have decodes (i : Fin 4) : Decodes i s.lanes[i] u.lanes[i] := hu ▸ decodes_movePfe _ s i
  have pim : v.pim = s.pim := by rw [← hv]; exact offered.pim
  have ctl : v.ctl = s.ctl := by rw [← hv]; exact offered.ctl
  have rte : v.rte = s.rte := by rw [← hv]; exact offered.rte
  have law : v.pim.flash.seedCount ≤ l.next → v.pwu.deferred = false
      ∧ (l.scope = .startUp → ∀ w ∈ v.ctl.waiting, ownerOf w.cmd w.operands ≠ .ctl) := by
    rw [pim, ctl]
    intro hn
    obtain ⟨hd, hw⟩ := hlaw hn
    refine ⟨?_, hw⟩
    rw [← hv]
    exact hu ▸ movePfe_undeferred _ hd
  have goes : seedsNext l v = t := by
    rw [← ht]
    refine seedsNext_eq fun hn => ?_
    obtain ⟨hd, hw⟩ := law hn
    exact ⟨fun h => absurd (hd.symm.trans h) nofun, fun h w hwm ho => absurd ho (hw h w hwm)⟩
  have went : WentOn v t := ht ▸ seedsGoOn_wentOn law
  have unit : settingsServed s = unitDone .profile t := by
    have served : settingsServed s = finishUnit .profile (seedsNext l (applySettings s.pim.flash.settings s)) := by
      unfold settingsServed
      rw [load_some hop]
      exact (if_pos hst).trans (unitAt_serving hs)
    have settings : s.pim.flash.settings = b := hb.symm
    rw [served, settings, applySettings_eq length, hu, hv, goes]
    rfl
  have pfe : t.pfe = s.pfe.settingsBanks b := by rw [went.pfe, ← hv]; exact offered.pfe
  have lanes (i : Fin 4) : t.lanes[i] = laneItem b t.pfe.levels i u.lanes[i] := by
    have levels : u.pfe.levels = t.pfe.levels := by rw [went.pfe, ← hv]; rfl
    rw [went.lanes, ← hv, ← levels]
    exact Vector.getElem_ofFn i.isLt
  have hold : u.rte.hold = s.rte.hold := offered.hold
  have rows (i : Fin 16) : t.dse.rows[i] = rowItem b s.rte.hold i s.dse.rows[i] := by
    have present : u.dse.rows = s.dse.rows := offered.rows
    rw [went.dse, ← hv, ← hold, ← present]
    exact Vector.getElem_ofFn i.isLt
  have traps (i : Fin 4) : t.wta.traps[i] = trapItem b i s.wta.traps[i] := by
    have present : u.wta.traps = s.wta.traps := offered.traps
    rw [went.wta, ← hv, ← present]
    exact Vector.getElem_ofFn i.isLt
  have pwu : t.pwu = u.pwu.apply (settingsValues b) := by rw [went.pwu, ← hv]; rfl
  refine ⟨settle (unitDone .profile t), (live_next running).trans (congrArg (fun t => Host.Outcome.next (settle t)) unit),
    fun hn => ?_, fun hn => ?_, ?_, ?_, rfl, fun n => ?_, fun i => ⟨fun hc => ?_, fun c hc => ?_⟩, traps, fun i => ?_, ?_, ?_, ?_, ?_,
    ?_, ?_, ?_, ?_, ?_, ?_, fun n => ?_, fun hq => ?_⟩
  · have more : t = _ := ht.symm.trans (if_pos (by rw [pim]; exact hn))
    refine ⟨?_, ?_⟩
    · show t.pim = _
      rw [more, ← pim]
    · show t.ctl = _
      rw [more, ← ctl]
  · obtain ⟨hd, hw⟩ := law (by rw [pim]; exact hn)
    have last : t = loadCompleted { l with stage := .seeding } .valid v :=
      ht.symm.trans (if_neg (by rw [pim]; exact Nat.not_lt.2 hn))
    obtain ⟨-, done, raised, record⟩ := loadCompleted_plain (l := { l with stage := .seeding }) .valid hd hw
    rw [← last] at done raised record
    exact ⟨done.trans (by rw [pim]), raised, record.trans (by rw [ctl])⟩
  · show t.rte.table = _
    rw [went.rte, rte]
  · show t.rte.hold = _
    rw [went.rte, rte]
  · show t.pfe.banks[n] = _
    rw [pfe]
    exact settingsBanks_get b s.pfe n
  · have kept : t.lanes[i] = u.lanes[i] := (lanes i).trans (laneItem_refused _ _ hc)
    show (t.lanes[i]).cfg = _ ∧ (t.lanes[i]).enabled = _
    rw [kept]
    exact ⟨(decodes i).cfg, (decodes i).enabled⟩
  · have written := (lanes i).trans (laneItem_accepted _ _ hc)
    show (t.lanes[i]).cfg = _ ∧ (t.lanes[i]).enabled = _ ∧ (t.lanes[i]).slot = _ ∧ (t.lanes[i]).pointers = _
      ∧ (t.lanes[i]).state = _ ∧ (t.lanes[i]).request = _
    rw [written, (decodes i).cfg, (decodes i).request]
    exact ⟨rfl, rfl, rfl, rfl, rfl, rfl⟩
  · exact rows i
  · show t.dse.window = _
    rw [went.dse, ← hv]
    rfl
  · show t.dse.runLevel = _
    rw [went.dse, ← hv]
    rfl
  · show t.dse.dimLevel = _
    rw [went.dse, ← hv]
    rfl
  · have present : u.wta.enables = s.wta.enables := by rw [offered.wta]; rfl
    show t.wta.enables = _
    rw [went.wta, ← hv, ← present]
    rfl
  · show t.pwu.dim = _
    rw [pwu]
    rfl
  · show t.pwu.dark = _
    rw [pwu]
    rfl
  · show t.pwu.sleep = _
    rw [pwu]
    rfl
  · show t.pwu.holdkeyWake = _
    rw [pwu]
    rfl
  · show t.pwu.keyActivity = _
    rw [pwu]
    rfl
  · show t.pwu.linkActivity = _
    rw [pwu]
    rfl
  · show t.pwu.wakeEdges[n] = _
    rw [pwu]
    exact Vector.getElem_ofFn n.isLt
  · have quiet : u.pwu = s.pwu := hu ▸ movePfe_quiet hq _
    show t.pwu.power = _ ∧ t.pwu.op = _ ∧ t.pwu.timer = _ ∧ t.pwu.deferred = _
    rw [pwu, quiet]
    exact ⟨rfl, rfl, rfl, rfl⟩

end Sys2Proof.Machine
end

section
/-! PROOF. The panel's text, spelled out (R140 to R145, R153). -/

namespace Sys2Proof.Machine

/-! ### Digits and fields -/

theorem digit_eq (d : Nat) : digit d = digitCode d := by
  unfold digit digitCode
  split <;> rfl

theorem length_fixedDigits (base n v : Nat) : (fixedDigits base n v).length = n := by
  induction n with
  | zero => rfl
  | succ n ih => rw [fixedDigits, List.length_cons, ih]

theorem fixedDigits_eq (base n v : Nat) : fixedDigits base n v = numeral base n v := by
  induction n with
  | zero => rfl
  | succ n ih =>
    have rest : numeral base (n + 1) v = digitCode (v / base ^ n % base) :: numeral base n v := by
      rw [numeral, List.range_succ_eq_map, List.map_cons, List.map_map]
      congr 1
      refine List.map_congr_left fun j hj => ?_
      have : n + 1 - 1 - (j + 1) = n - 1 - j := by omega
      simp only [Function.comp_apply, this]
    rw [fixedDigits, rest, ih, digit_eq]

theorem decimalDigits_eq {fuel n : Nat} (hn : 0 < n) (h : n < 10 ^ fuel) :
    decimalDigits fuel n = (Nat.digits 10 n).reverse.map digitCode := by
  induction fuel generalizing n with
  | zero => omega
  | succ fuel ih =>
    rw [decimalDigits]
    split
    · next small => rw [Nat.digits_of_lt 10 n hn.ne' small, digit_eq]; rfl
    · have shorter : n / 10 < 10 ^ fuel := by
        rw [Nat.pow_succ] at h
        omega
      rw [ih (by omega) shorter, Nat.digits_def' (by decide) hn, digit_eq]
      simp

theorem decimal_eq {n : Nat} (h : n < 10 ^ 10) : decimal n = decimalText n := by
  unfold decimal decimalText
  split
  · next hn => rw [hn]; rfl
  · exact decimalDigits_eq (by omega) h

theorem length_decimalText {n k : Nat} (hk : 0 < k) (h : n < 10 ^ k) : (decimalText n).length ≤ k := by
  unfold decimalText
  split
  · exact hk
  · rw [List.length_map, List.length_reverse]
    exact (Nat.digits_length_le_iff (by decide) n).2 h

theorem keyText_eq (k : Key) : k.text = keyLine k := by
  rw [Key.text, keyLine, digit_eq, fixedDigits_eq, fixedDigits_eq]
  rfl

theorem length_keyText (k : Key) : k.text.length = 11 := by
  simp [Key.text, codes, length_fixedDigits]

/-! ### Fields and rows of a record -/

theorem layoutRow_eq {mark : Byte} {name value count : List Byte} (hn : name.length ≤ 12) (hv : value.length ≤ 20) :
    layoutRow mark name value count = rowLine mark name value (padLeft 5 count) := by
  rw [layoutRow, rowLine, padRight_eq hn, padRight_eq hv]

theorem padLeft_decimal {n : Nat} (h : n ≤ 65535) : padLeft 5 (decimal n) = countColumn n := by
  rw [decimal_eq (by omega)]
  rfl

theorem padLeft_nil : padLeft 5 [] = List.replicate 5 0x20 := rfl

/-- The low eight binary digits are those of the low byte. -/
theorem lowByte_digits (v : Nat) : fixedDigits 2 8 v = fixedDigits 2 8 (v % 256) := by
  have bit (k : Nat) (hk : k < 8) : v / 2 ^ k % 2 = v % 256 / 2 ^ k % 2 := by
    interval_cases k <;> omega
  simp only [fixedDigits]
  rw [bit 0 (by decide), bit 1 (by decide), bit 2 (by decide), bit 3 (by decide), bit 4 (by decide), bit 5 (by decide),
    bit 6 (by decide), bit 7 (by decide)]

theorem valueText_eq {f : Format} {w : Nat} (v : Word) : valueText f w v = valueLine f w v := by
  have hv := v.isLt
  unfold valueText valueLine hexText
  cases f with
  | hex => simp only [fixedDigits_eq]; rfl
  | decimal => rw [if_pos rfl, decimal_eq (by omega)]
  | binary =>
    by_cases h1 : w = 1
    · subst h1
      simp [fixedDigits_eq]
    · by_cases h2 : w = 2
      · subst h2
        simp [lowByte_digits v.toNat, fixedDigits_eq]
      · simp [h1, h2, fixedDigits_eq]
        rfl

theorem length_valueText {f : Format} {w : Nat} (hw : w = 1 ∨ w = 2 ∨ w = 4) (v : Word) : (valueText f w v).length ≤ 20 := by
  have hv := v.isLt
  have hex : (hexText w v).length ≤ 20 := by
    rw [hexText, List.length_append, length_fixedDigits]
    show 2 + 2 * w ≤ 20
    omega
  cases f with
  | hex => exact hex
  | decimal =>
    show (decimal v.toNat).length ≤ 20
    rw [decimal_eq (by omega)]
    exact (length_decimalText (by decide) (k := 10) (by omega)).trans (by decide)
  | binary =>
    unfold valueText
    dsimp only
    split
    · rw [length_fixedDigits]; decide
    · split
      · simp [length_fixedDigits]
      · exact hex

theorem marker_eq (window epoch : Nat) (r : Record) : marker window epoch r = markLine window epoch r := by
  have recent : highlighted window epoch r = r.lastChange.any (fun e => epoch - e < window) := by
    unfold highlighted
    cases r.lastChange <;> rfl
  rw [marker, markLine, recent]
  rfl

theorem length_name {r : Record} (hl : ∀ l, r.label = some l → l.length ≤ 12) : r.name.length ≤ 12 := by
  unfold Record.name
  cases h : r.label with
  | none => exact (length_keyText r.key).trans_le (by decide)
  | some l => exact hl l h

theorem recordText_eq {f : Format} {window epoch : Nat} {heldView : Bool} {r : Record}
    (hw : r.width = 1 ∨ r.width = 2 ∨ r.width = 4) (hc : r.changes ≤ 65535) (hl : ∀ l, r.label = some l → l.length ≤ 12) :
    recordText f window epoch heldView r = recordLine f window epoch (shownValue heldView r) r := by
  have name : r.name = r.label.getD (keyLine r.key) := by rw [Record.name, keyText_eq]
  have value : ((shownValue heldView r).elim dashes (valueText f r.width)).length ≤ 20 := by
    cases shownValue heldView r with
    | none => exact Nat.le_of_ble_eq_true rfl
    | some v => exact length_valueText hw v
  have shown : (shownValue heldView r).elim dashes (valueText f r.width)
      = (shownValue heldView r).elim [0x2D, 0x2D, 0x2D, 0x2D] (valueLine f r.width) := by
    cases shownValue heldView r with
    | none => rfl
    | some v => exact valueText_eq v
  rw [recordText, layoutRow_eq (length_name hl) value, marker_eq, name, shown, padLeft_decimal hc]
  rfl

/-! ### Watch, probe and header lines -/

theorem watchName_eq (n : Fin 8) (name : List Byte) : watchName n name = watchColumn n name := by
  rw [watchName, watchColumn, digit_eq]
  rfl

theorem length_watchName (n : Fin 8) (name : List Byte) : (watchName n name).length ≤ 12 := by
  simp [watchName, codes]
  omega

theorem plus_eq (missed : Bool) : (if missed then codes ['+'] else []) = plus missed := by
  cases missed <;> rfl

theorem probeText_eq (n : Fin 16) {p : Probe} (h : p.edgesLast ≤ 65535) : probeText n p =
    rowLine (if p.glitch then 0x67 else 0x20) (0x50 :: numeral 10 2 n.val)
      ([if p.level then 0x48 else 0x4C, 0x20] ++ decimalText p.edgesLast) (List.replicate 5 0x20) := by
  have short : (decimalText p.edgesLast).length ≤ 5 := length_decimalText (by decide) (by omega)
  have level : codes [if p.level then 'H' else 'L', ' '] = [if p.level then 0x48 else 0x4C, 0x20] := by
    cases p.level <;> rfl
  have name : (codes ['P'] ++ fixedDigits 10 2 n.val).length ≤ 12 := by
    rw [List.length_append, length_fixedDigits]
    decide
  have value : (codes [if p.level then 'H' else 'L', ' '] ++ decimal p.edgesLast).length ≤ 20 := by
    rw [level, decimal_eq (by omega), List.length_append]
    exact (Nat.add_le_add_left short 2).trans (by decide)
  rw [probeText, layoutRow_eq name value, level, decimal_eq (by omega), fixedDigits_eq, padLeft_nil]
  rfl

theorem headerText_eq (holdOn : Bool) (s : State) : headerText holdOn s =
    (if holdOn then [0x48, 0x4F, 0x4C, 0x44] else List.replicate 4 0x20 : List Byte) ++ ([0x20] : List Byte)
      ++ numeral 10 4 s.rte.table.length ++ ([0x2F, 0x31, 0x30, 0x32, 0x34] : List Byte) ++ ([0x20] : List Byte)
      ++ (([0, 1, 2, 3] : List (Fin 4)).flatMap fun i => laneText s.lanes[i])
      ++ ([0x20, 0x57] : List Byte) ++ numeral 10 2 s.wta.waitingSlots ++ (List.replicate 13 0x20 : List Byte) := by
  have lanes : (s.lanes.toList.map laneText).flatten = ([0, 1, 2, 3] : List (Fin 4)).flatMap fun i => laneText s.lanes[i] := by
    rw [toList_four]
    rfl
  rw [headerText, fixedDigits_eq, fixedDigits_eq, lanes]
  simp only [List.append_assoc]
  rfl

theorem watchText_armed {window epoch : Nat} {table : List Record} {n : Fin 8} {k : Key} {r : Record}
    (hr : lookup k table = some r) (hc : r.changes ≤ 65535) : watchText window epoch table n (.armed k) =
      rowLine (markLine window epoch r) (watchColumn n (r.label.getD (keyLine r.key))) [0x2D, 0x2D, 0x2D, 0x2D]
        (countColumn r.changes) := by
  have row : watchText window epoch table n (.armed k)
      = layoutRow (marker window epoch r) (watchName n r.name) dashes (decimal r.changes) := by rw [watchText, hr]; rfl
  rw [row, layoutRow_eq (length_watchName n _) (Nat.le_of_ble_eq_true rfl), marker_eq, watchName_eq, padLeft_decimal hc, Record.name,
    keyText_eq]
  rfl

theorem watchText_pending {window epoch : Nat} {table : List Record} {n : Fin 8} {k : Key} {r : Record} (v : Word) (m : Bool)
    (t : Option Taken) (hr : lookup k table = some r) (hw : r.width = 1 ∨ r.width = 2 ∨ r.width = 4) (hc : r.changes ≤ 65535) :
    watchText window epoch table n (.pending k v m t) =
      rowLine (markLine window epoch r) (watchColumn n (r.label.getD (keyLine r.key))) (valueLine .hex r.width v ++ plus m)
        (countColumn r.changes) := by
  have row : watchText window epoch table n (.pending k v m t) = layoutRow (marker window epoch r) (watchName n r.name)
      (hexText r.width v ++ if m then codes ['+'] else []) (decimal r.changes) := by rw [watchText, hr]; rfl
  have hex : hexText r.width v = valueLine .hex r.width v := valueText_eq (f := .hex) v
  have short : (hexText r.width v ++ if m then codes ['+'] else []).length ≤ 20 := by
    have value : (hexText r.width v).length = 2 + 2 * r.width := by
      rw [hexText, List.length_append, length_fixedDigits]
      rfl
    have mark : (if m then codes ['+'] else []).length ≤ 1 := by cases m <;> decide
    rw [List.length_append, value]
    omega
  rw [row, layoutRow_eq (length_watchName n _) short, marker_eq, watchName_eq, padLeft_decimal hc, plus_eq, hex, Record.name,
    keyText_eq]

theorem watchText_free (window epoch : Nat) (table : List Record) (n : Fin 8) : watchText window epoch table n .free =
    rowLine 0x20 [0x57, digitCode n.val] [] (List.replicate 5 0x20) := by
  rw [watchText, layoutRow_eq (Nat.le_of_ble_eq_true rfl) (Nat.le_of_ble_eq_true rfl), digit_eq, padLeft_nil]
  rfl

theorem watchText_detached (window epoch : Nat) (table : List Record) (n : Fin 8) (k : Key) (v : Option Word) (m : Bool)
    (t : Option Taken) :
    watchText window epoch table n (.detached k v m t) =
      rowLine 0x20 (watchColumn n (keyLine k)) (goneCodes ++ plus m) (List.replicate 5 0x20) := by
  have short : (gone ++ if m then codes ['+'] else []).length ≤ 20 := by cases m <;> decide
  rw [watchText, layoutRow_eq (length_watchName n _) short, watchName_eq, plus_eq, keyText_eq, padLeft_nil]
  rfl

theorem goneText_eq (k : Key) : goneText k = rowLine 0x20 (keyLine k) goneCodes (List.replicate 5 0x20) := by
  rw [goneText, layoutRow_eq ((length_keyText k).trans_le (by decide)) (by decide), keyText_eq, padLeft_nil]
  rfl

theorem shownValue_eq (heldView : Bool) (r : Record) : shownValue heldView r =
    if heldView = true then (match r.held with
      | some (.value v) => some v
      | some .none => none
      | none => r.value) else r.value := by
  unfold shownValue
  cases heldView with
  | false => rfl
  | true =>
    cases r.held with
    | none => rfl
    | some h => cases h <;> rfl

end Sys2Proof.Machine
end

section
/-! PROOF. The slices of a refresh: ranking and drawing (R149, R150, R151). -/

namespace Sys2Proof.Machine

/-! ### The ranked list -/

theorem ranksBefore_iff (x y : Ranked) : ranksBefore x y = true ↔ y.heat < x.heat
    ∨ (x.heat = y.heat ∧ (y.access < x.access ∨ (x.access = y.access ∧ x.key.num < y.key.num))) := by
  simp [ranksBefore]

theorem ranksBefore_trans {x y z : Ranked} (h : ranksBefore x y = true) (h' : ranksBefore y z = true) : ranksBefore x z = true := by
  rw [ranksBefore_iff] at h h' ⊢
  omega

theorem ranksBefore_irrefl (x : Ranked) : ranksBefore x x = false := by
  rw [Bool.eq_false_iff, ne_eq, ranksBefore_iff]
  omega

theorem ranksBefore_asymm {x y : Ranked} (h : ranksBefore x y = true) : ranksBefore y x = false := by
  rw [Bool.eq_false_iff, ne_eq, ranksBefore_iff]
  rw [ranksBefore_iff] at h
  omega

theorem ranksBefore_total {x y : Ranked} (h : x.key.num ≠ y.key.num) (hn : ¬ ranksBefore x y = true) : ranksBefore y x = true := by
  rw [ranksBefore_iff] at hn ⊢
  omega

/-- A list in the order of R149. -/
def InRank (l : List Ranked) : Prop := l.Pairwise fun x y => ranksBefore x y = true

theorem insertRanked_perm (x : Ranked) (l : List Ranked) : (insertRanked x l).Perm (x :: l) := by
  induction l with
  | nil => exact .refl _
  | cons y ys ih =>
    rw [insertRanked]
    split
    · exact .refl _
    · exact (ih.cons y).trans (.swap x y ys)

theorem insertRanked_inRank {x : Ranked} {l : List Ranked} (hl : InRank l) (hx : ∀ y ∈ l, x.key.num ≠ y.key.num) :
    InRank (insertRanked x l) := by
  induction l with
  | nil => exact List.pairwise_singleton _ x
  | cons y ys ih =>
    obtain ⟨first, rest⟩ := List.pairwise_cons.1 hl
    rw [insertRanked]
    split
    · next before =>
      refine List.pairwise_cons.2 ⟨fun z hz => ?_, hl⟩
      rcases List.mem_cons.1 hz with rfl | hz
      · exact before
      · exact ranksBefore_trans before (first z hz)
    · next after =>
      refine List.pairwise_cons.2 ⟨fun z hz => ?_, ih rest fun z hz => hx z (List.mem_cons_of_mem _ hz)⟩
      rcases List.mem_cons.1 ((insertRanked_perm x ys).mem_iff.1 hz) with rfl | hz
      · exact ranksBefore_total (hx y List.mem_cons_self) after
      · exact first z hz

/-- Only the first `n` of a list matter to the first `n` after an insertion. -/
theorem take_insertRanked (x : Ranked) (l : List Ranked) (n : Nat) :
    (insertRanked x (l.take n)).take n = (insertRanked x l).take n := by
  induction l generalizing n with
  | nil => rw [List.take_nil]
  | cons y ys ih =>
    cases n with
    | zero => rfl
    | succ n =>
      rw [List.take_succ_cons, insertRanked, insertRanked]
      split
      · rw [List.take_succ_cons, List.take_succ_cons, ← List.take_succ_cons (a := y), List.take_take]
        simp
      · rw [List.take_succ_cons, List.take_succ_cons, ih]

/-- A member of a list in order is among the first `n` exactly when fewer than `n` stand before it. -/
theorem mem_take_iff {l : List Ranked} (hl : InRank l) (n : Nat) (x : Ranked) :
    x ∈ l.take n ↔ x ∈ l ∧ (l.filter fun y => ranksBefore y x).length < n := by
  induction l generalizing n with
  | nil => simp
  | cons y ys ih =>
    obtain ⟨first, rest⟩ := List.pairwise_cons.1 hl
    cases n with
    | zero => simp
    | succ n =>
      rw [List.take_succ_cons, List.mem_cons, List.mem_cons, ih rest]
      by_cases hx : x = y
      · subst hx
        have none : (x :: ys).filter (fun y => ranksBefore y x) = [] := by
          refine List.filter_eq_nil_iff.2 fun z hz => ?_
          rcases List.mem_cons.1 hz with rfl | hz
          · rw [ranksBefore_irrefl]; nofun
          · rw [ranksBefore_asymm (first z hz)]; nofun
        rw [none]
        simp
      · simp only [hx, false_or]
        refine and_congr_right fun hm => ?_
        rw [List.filter_cons_of_pos (p := fun z => ranksBefore z x) (first x hm), List.length_cons]
        omega

/-- The first `n` of all candidates judged so far, in order (R149). -/
structure RanksBest (n : Nat) (pool kept : List Ranked) : Prop where
  best : ∃ all : List Ranked, InRank all ∧ all.Perm pool ∧ kept = all.take n

theorem RanksBest.add {n : Nat} {pool kept : List Ranked} {x : Ranked} (h : RanksBest n pool kept)
    (hx : ∀ y ∈ pool, x.key.num ≠ y.key.num) : RanksBest n (pool ++ [x]) ((insertRanked x kept).take n) := by
  obtain ⟨all, inRank, perm, rfl⟩ := h.best
  refine ⟨insertRanked x all, insertRanked_inRank inRank fun y hy => hx y (perm.mem_iff.1 hy), ?_, take_insertRanked x all n⟩
  exact (insertRanked_perm x all).trans ((perm.cons x).trans (List.perm_append_singleton x pool).symm)

theorem RanksBest.inRank {n : Nat} {pool kept : List Ranked} (h : RanksBest n pool kept) : InRank kept := by
  obtain ⟨all, inRank, perm, rfl⟩ := h.best
  exact inRank.sublist (List.take_sublist n all)

theorem RanksBest.mem_iff {n : Nat} {pool kept : List Ranked} (h : RanksBest n pool kept) (x : Ranked) :
    x ∈ kept ↔ x ∈ pool ∧ (pool.filter fun y => ranksBefore y x).length < n := by
  obtain ⟨all, inRank, perm, rfl⟩ := h.best
  rw [mem_take_iff inRank, perm.mem_iff, (perm.filter _).length_eq]

/-- A record is a candidate of the ranked list (R149). -/
def isCandidate (rows : Vector Row 16) (epoch : Nat) (r : Record) : Bool :=
  0 < decayedHeat r epoch && rows.toList.all fun row => row.binding ≠ .record r.key

/-- The candidates among the records of a slice (R149). -/
def candidates (rows : Vector Row 16) (epoch : Nat) (took : List Record) : List Ranked :=
  (took.filter (isCandidate rows epoch)).map fun r => ⟨r.key, decayedHeat r epoch, r.lastAccess⟩

theorem rankRecord_eq (rows : Vector Row 16) (epoch n : Nat) (kept : List Ranked) (r : Record) : rankRecord rows epoch n kept r =
    if isCandidate rows epoch r then
      (insertRanked ⟨r.key, decayedHeat r epoch, r.lastAccess⟩ kept).take n
    else kept := by
  have argument : isRowArgument rows r.key = !(rows.toList.all fun row => row.binding ≠ .record r.key) := by
    rw [isRowArgument, List.not_all_eq_any_not]
    simp
  rw [rankRecord, argument, isCandidate]
  simp

theorem foldl_rankRecord {rows : Vector Row 16} {epoch n : Nat} {took : List Record} {pool kept : List Ranked}
    (h : RanksBest n pool kept) (hd : took.Pairwise fun a b => a.key.num < b.key.num)
    (hx : ∀ r ∈ took, ∀ y ∈ pool, y.key.num < r.key.num) :
    RanksBest n (pool ++ candidates rows epoch took) (took.foldl (rankRecord rows epoch n) kept) := by
  induction took generalizing pool kept with
  | nil => simpa [candidates] using h
  | cons r rs ih =>
    obtain ⟨above, rest⟩ := List.pairwise_cons.1 hd
    rw [List.foldl_cons, rankRecord_eq, candidates]
    have later : ∀ r' ∈ rs, ∀ y ∈ pool, y.key.num < r'.key.num := fun r' hr' => hx r' (List.mem_cons_of_mem _ hr')
    by_cases ok : isCandidate rows epoch r = true
    · rw [if_pos ok, List.filter_cons_of_pos ok, List.map_cons, List.append_cons]
      have added := h.add (x := ⟨r.key, decayedHeat r epoch, r.lastAccess⟩) fun y hy =>
        (hx r List.mem_cons_self y hy).ne'
      refine ih added rest fun r' hr' y hy => ?_
      rcases List.mem_append.1 hy with hy | hy
      · exact later r' hr' y hy
      · rw [List.mem_singleton.1 hy]
        exact above r' hr'
    · rw [if_neg ok, List.filter_cons_of_neg ok]
      exact ih h rest later

/-! ### The slices -/

theorem displayUnit_eq {waits : State → Bool} {f : State → State} {s : State} (hw : waits s = true)
    (hs : s.rte.serving = some .display) : displayUnit waits f s = finishUnit .display (f s) := by
  rw [displayUnit, if_pos hw, unitAt_serving hs]

/-- A ranking slice as its unit: the refresh in its next phase (R149). -/
theorem exec_rankingSlice {s : State} {rf : Refresh} {cursor : Key} {ranked : List Ranked} (h : ServesRefresh rf s)
    (hp : rf.phase = .ranking cursor ranked) : exec .rankingSlice s = .next (settle
      { unitDone .display s with dse := { s.dse with
          refresh := some { rf with phase := rankedPhase rf s cursor ranked } } }) := by
  obtain ⟨running, hs, hrf⟩ := h
  have waits : rankingWaits s = true := by rw [rankingWaits, hrf]; dsimp only; rw [hp]
  have slice : rankingSlice s = s.setDse { s.dse with refresh := some { rf with phase := rankedPhase rf s cursor ranked } } := by
    rw [rankingSlice, hrf]
    dsimp only
    rw [hp]
  refine (live_next running).trans (congrArg (fun t => Host.Outcome.next (settle t)) ?_)
  rw [displayUnit_eq waits hs, slice]
  rfl

theorem rankingNext_some {took : List Record} {last : Record} (hl : took.length = 64) (ht : took.getLast? = some last)
    (hn : last.key.num + 1 < 2 ^ 28) : rankingNext took = some (Key.ofNum (last.key.num + 1)) := by
  rw [rankingNext, if_pos hl, ht, Option.bind_some, Key.next, if_pos hn]

theorem rankingNext_none {took : List Record}
    (h : took.length < 64 ∨ ∃ last, took.getLast? = some last ∧ 2 ^ 28 ≤ last.key.num + 1) : rankingNext took = none := by
  rw [rankingNext]
  rcases h with h | ⟨last, ht, hn⟩
  · rw [if_neg (by omega)]
  · split
    · rw [ht, Option.bind_some, Key.next, if_neg (Nat.not_lt.2 hn)]
    · rfl

/-- A drawing slice as its unit: more table rows to come, or the lines queued (R150, R151). -/
theorem exec_drawingSlice {s t : State} {rf : Refresh} {todo : List (Fin 16 × TableRow)} {composed : List Composed}
    (h : ServesRefresh rf s) (hp : rf.phase = .drawing todo composed)
    (ht : drawingSlice s = t) : exec .drawingSlice s = .next (settle (unitDone .display t)) := by
  obtain ⟨running, hs, hrf⟩ := h
  have waits : drawingWaits s = true := by rw [drawingWaits, hrf]; dsimp only; rw [hp]
  refine (live_next running).trans (congrArg (fun t => Host.Outcome.next (settle t)) ?_)
  rw [displayUnit_eq waits hs, ht]
  rfl

theorem drawingSlice_more {s : State} {rf : Refresh} {todo : List (Fin 16 × TableRow)} {composed drawn : List Composed}
    (hrf : s.dse.refresh = some rf) (hp : rf.phase = .drawing todo composed)
    (hd : drawn = composed ++ (todo.take 4).map fun x => ⟨x.1.succ, tableRowText rf s x.1 x.2⟩) (hm : 4 < todo.length) :
    drawingSlice s = s.setDse { s.dse with refresh := some { rf with phase := .drawing (todo.drop 4) drawn } } := by
  rw [drawingSlice, hrf]
  dsimp only
  rw [hp]
  dsimp only
  rw [← hd]
  have more : (todo.drop 4).length ≠ 0 := by rw [List.length_drop]; omega
  cases hl : todo.drop 4 with
  | nil => exact absurd (congrArg List.length hl) more
  | cons x xs => rfl

theorem drawingSlice_last {s : State} {rf : Refresh} {todo : List (Fin 16 × TableRow)} {composed drawn : List Composed}
    (hrf : s.dse.refresh = some rf) (hp : rf.phase = .drawing todo composed)
    (hd : drawn = composed ++ (todo.take 4).map fun x => ⟨x.1.succ, tableRowText rf s x.1 x.2⟩) (hm : todo.length ≤ 4) :
    drawingSlice s = queueLines rf (drawn ++ lastSliceLines rf s drawn) s := by
  rw [drawingSlice, hrf]
  dsimp only
  rw [hp]
  dsimp only
  rw [← hd]
  rw [List.drop_eq_nil_of_le hm]

theorem lineNumbers_eq : lineNumbers = List.finRange 17 := by
  rw [lineNumbers, Vector.toList_ofFn, List.ofFn_id]

/-- The lines of the last slice: the header, and each composed row that no slice has drawn (R150, R153). -/
theorem lastSliceLines_eq (rf : Refresh) (s : State) (drawn : List Composed) : lastSliceLines rf s drawn =
    ⟨0, headerText rf.holdOn s⟩
      :: (((List.finRange 16).filter fun i => rowComposed rf.holdOn rf.rows i && drawn.all fun c => c.n ≠ i.succ).map fun i =>
        ⟨i.succ, plainRowText s rf.rows[i]⟩) := by
  have fresh (i : Fin 16) : (composedText i.succ drawn).isNone = drawn.all fun c => c.n ≠ i.succ := by
    rw [Bool.eq_iff_iff, composedText, Option.isNone_iff_eq_none, Option.map_eq_none_iff, List.find?_eq_none]
    simp
  rw [lastSliceLines, rowsInScope_eq, List.filter_filter, List.filter_map, List.map_map]
  refine congrArg _ (congrArg (List.map _) (List.filter_congr fun i _ => ?_))
  show ((composedText i.succ drawn).isNone && (!rf.holdOn || (rf.rows[i]).rebound)) = _
  rw [fresh, Bool.and_comm]
  rfl

/-- The letter of a lane kind in the header (R145). -/
def laneLetter (k : LaneKind) : Byte :=
  match k with
  | .none => 0x2D
  | .twoWire => 0x54
  | .fourWire => 0x46
  | .management => 0x4D

theorem waitingSlots_eq (w : Wta) : w.waitingSlots = (w.slots.toList.filter fun x => match x with
    | .pending .. | .detached .. => true
    | .free | .armed _ => false).length := by
  refine congrArg List.length (List.filter_congr fun x _ => ?_)
  cases x <;> rfl

/-- Settles O39: the ranked list by `RanksBest`, the slices by `rankingSlice`'s phases and `queueLines`, the text by the lemmas
about each row. -/
theorem refreshSlicesAreServed : Obligations.RefreshSlicesAreServed := by
  refine ⟨fun s rf h => ⟨?_, ?_⟩, fun s rf i k n => ⟨fun habsent => ⟨?_, ?_⟩, fun r hr hw hc hl => ⟨?_, ?_, ?_, ?_⟩, ?_, ?_⟩,
    fun s row p holdOn => ⟨?_, fun hb hp => ?_, ?_⟩⟩
  · rintro cursor ranked pool took better n hp ⟨-, order⟩ rfl rfl sorted short below rfl rfl
    have began : RanksBest (autoCount rf.rows) ranked ranked := ⟨ranked, sorted, .refl _, (List.take_of_length_le short).symm⟩
    have inOrder : (rankingTake s.rte.table cursor).Pairwise fun a b => a.key.num < b.key.num :=
      (List.pairwise_map.1 order).sublist ((List.take_sublist 64 _).trans List.filter_sublist)
    have above : ∀ r ∈ rankingTake s.rte.table cursor, ∀ y ∈ ranked, y.key.num < r.key.num := fun r hr y hy =>
      (below y hy).trans_le (of_decide_eq_true (List.mem_filter.1 (List.mem_of_mem_take hr)).2)
    obtain ⟨kept, hkept⟩ : ∃ kept, (rankingTake s.rte.table cursor).foldl (rankRecord rf.rows s.rte.epoch (autoCount rf.rows))
        ranked = kept := ⟨_, rfl⟩
    have best := foldl_rankRecord began inOrder above (rows := rf.rows) (epoch := s.rte.epoch)
    rw [hkept] at best
    refine ⟨kept, best.inRank, best.mem_iff, fun last hl ht hn => ?_, fun hlast => ?_⟩
    · have phase : rankedPhase rf s cursor ranked = .ranking (Key.ofNum (last.key.num + 1)) kept := by
        rw [rankedPhase, hkept, rankingTake, rankingNext_some hl ht hn]
      exact (exec_rankingSlice h hp).trans (by rw [phase])
    · have phase : rankedPhase rf s cursor ranked = drawingPhase rf.holdOn rf.rows (kept.map (·.key)) := by
        rw [rankedPhase, hkept, rankingTake, rankingNext_none hlast]
      exact (exec_rankingSlice h hp).trans (by rw [phase, drawingPhase_eq])
  · rintro todo composed drawn hp hd
    refine ⟨fun hm => exec_drawingSlice h hp (drawingSlice_more h.2.2 hp hd hm), ?_⟩
    rintro all ms hm hall hms
    have lines : lineNumbers.filterMap (lineMessage rf.isRepaint s.dse (drawn ++ lastSliceLines rf s drawn)) = ms := by
      rw [lineNumbers_eq, lastSliceLines_eq, ← hall, hms]
      refine List.filterMap_congr fun n _ => ?_
      unfold lineMessage composedText
      cases all.find? (fun c => c.n = n) <;> rfl
    have queued : drawingSlice s = s.setDse { s.dse with
        port := s.dse.port ++ ms, refresh := if ms = [] then none else some { rf with phase := .sending } } := by
      rw [drawingSlice_last h.2.2 hp hd hm, queueLines, lines]
    exact exec_drawingSlice h hp queued
  · rw [tableRowText, habsent]
    exact goneText_eq k
  · rw [tableRowText, habsent]
    rfl
  · rw [tableRowText, hr]
    exact recordText_eq hw hc hl
  · have shown := shownValue_eq rf.holdOn r
    rw [tableRowText, hr]
    exact (recordText_eq hw hc hl).trans (congrArg (fun v => recordLine _ _ _ v r) shown)
  · intro hs
    rw [tableRowText, hs]
    exact watchText_armed hr hc
  · intro v m t hs
    rw [tableRowText, hs]
    exact watchText_pending v m t hr hw hc
  · intro hs
    rw [tableRowText, hs]
    exact watchText_free _ _ _ n
  · intro v m t hs
    rw [tableRowText, hs]
    exact watchText_detached _ _ _ n k v m t
  · rintro (hb | hb) <;> rw [plainRowText, hb] <;> rfl
  · rw [plainRowText, hb]
    exact probeText_eq p hp
  · have flags (c : Prop) [Decidable c] : byteOf (if c then '.' else '!').toNat = if c then 0x2E else 0x21 := by split <;> rfl
    have lane (l : Lane) : laneText l = [laneLetter l.cfg.kind, if l.flags = 0 then 0x2E else 0x21] := by
      rw [← flags]
      unfold laneText laneLetter
      cases l.cfg.kind <;> rfl
    have lanes : (fun i => laneText s.lanes[i]) = fun i : Fin 4 =>
        [laneLetter (s.lanes[i]).cfg.kind, if (s.lanes[i]).flags = 0 then 0x2E else 0x21] := funext fun i => lane _
    rw [headerText_eq, lanes, waitingSlots_eq]
    rfl

end Sys2Proof.Machine
end

section
/-! PROOF. Two-wire transfers, byte cell by byte cell (R38, R40, R44 to R53). -/

namespace Sys2Proof.Machine

/-! ### Bytes and values -/

theorem foldl_values (bs : List Byte) (n : Nat) :
    bs.foldl (fun n b => n * 256 + b.toNat) n = bs.foldl (fun n b => 256 * n + b.toNat) n := by
  induction bs generalizing n with
  | nil => rfl
  | cons b bs ih => rw [List.foldl_cons, List.foldl_cons, ih, Nat.mul_comm]

theorem assemble_eq (order : ByteOrder) (bs : List Byte) : assemble order bs = orderedValue order bs := by
  unfold assemble orderedValue beNat
  refine congrArg _ ?_
  cases order with
  | big => exact foldl_values bs 0
  | little =>
    dsimp only
    rw [foldl_values, List.foldl_reverse]
    exact congrArg (fun f => bs.foldr f 0) (funext fun b => funext fun n => Nat.add_comm _ _)

/-! ### A byte cell -/

theorem twoPhase_eq (ph : TwoPhase) (l : Lane) : l.twoPhase ph = inPhase ph l := rfl

theorem afterByteCell_eq (i : Fin 4) (b : Byte) (ack : Bool) {l : Lane} (h : l.two.bits = []) :
    afterByteCell i b ack l = l.twoByte i b ack := by
  have bit (x : Bool) (bits : List Bool) (hl : bits.length < 8) : Lane.twoBit i x { l with two := { l.two with bits := bits } }
      = { l with two := { l.two with bits := bits ++ [x] } } := if_neg hl.ne
  have walk (rest bits : List Bool) (hl : bits.length + rest.length ≤ 8) :
      rest.foldl (fun l x => l.twoBit i x) { l with two := { l.two with bits := bits } }
        = { l with two := { l.two with bits := bits ++ rest } } := by
    induction rest generalizing bits with
    | nil => rw [List.append_nil]; rfl
    | cons x rest ih =>
      rw [List.length_cons] at hl
      rw [List.foldl_cons, bit x bits (by omega), ih _ (by rw [List.length_append, List.length_singleton]; omega), List.append_assoc]
      rfl
  have start : l = { l with two := { l.two with bits := [] } } := by rw [← h]
  have eight := walk (byteBits b) [] (Nat.le_of_eq rfl)
  have last : Lane.twoBit i (!ack) { l with two := { l.two with bits := byteBits b } } = l.twoByte i b ack := by
    have whole : Lane.twoBit i (!ack) { l with two := { l.two with bits := byteBits b } }
        = Lane.twoByte i (byteOf (bitsNat (byteBits b))) (!!ack) { l with two := { l.two with bits := [] } } := rfl
    rw [whole, byteOf_byteBits, Bool.not_not, ← start]
  rw [afterByteCell, List.foldl_append, start, eight, ← start]
  exact last

/-! ### The address -/

theorem address_fields : ∀ (address : BitVec 7) (bit : BitVec 1), (address ++ bit : Byte).getLsbD 0 = bit.getLsbD 0
    ∧ (address ++ bit : Byte).extractLsb' 1 7 = address
    ∧ (address ++ bit : Byte).extractLsb' 3 5 = address.extractLsb' 2 5 := by
  decide +kernel

theorem tenBit_fields : ∀ (high : BitVec 2) (bit : BitVec 1), (0x1E#5 ++ high ++ bit : Byte).getLsbD 0 = bit.getLsbD 0
    ∧ (0x1E#5 ++ high ++ bit : Byte).extractLsb' 1 7 ≠ 0 ∧ (0x1E#5 ++ high ++ bit : Byte).extractLsb' 3 5 = 0x1E#5
    ∧ (0x1E#5 ++ high ++ bit : Byte).extractLsb' 1 2 = high := by
  decide +kernel

theorem tenBitTarget_fields (high : BitVec 2) (low : Byte) : (high ++ low : BitVec 10).extractLsb' 8 2 = high := by
  revert high low
  decide +kernel

theorem pointerOf_some {t : BitVec 10} {ptrs : List (BitVec 10 × BitVec 16)} {p : BitVec 16}
    (h : (ptrs.find? fun e => e.1 = t) = some (t, p)) : pointerOf t ptrs = some p := by
  rw [pointerOf, h]
  rfl

theorem pointerOf_none {t : BitVec 10} {ptrs : List (BitVec 10 × BitVec 16)} (h : ∀ e ∈ ptrs, e.1 ≠ t) :
    pointerOf t ptrs = none := by
  rw [pointerOf, List.find?_eq_none.2 fun e he => by simpa using h e he]
  rfl

theorem beginRead_known {t : BitVec 10} {p : BitVec 16} {l : Lane} (h : (l.pointers.find? fun e => e.1 = t) = some (t, p)) :
    l.beginRead t = { inPhase (.data t .read []) l with pointers := pointerInFront t p l.pointers } := by
  rw [Lane.beginRead, pointerOf_some h]
  rfl

theorem beginRead_unknown {t : BitVec 10} {l : Lane} (h : ∀ e ∈ l.pointers, e.1 ≠ t) :
    l.beginRead t = inPhase (.ignore none) (flagged 0x008 l) := by
  rw [Lane.beginRead, pointerOf_none h]
  rfl

/-- An address byte that is not acknowledged, or is the general call, is ignored (R44, R46). -/
theorem addressByte_ignored (address : BitVec 7) (bit : BitVec 1) {ack : Bool} (l : Lane) (h : ack = false ∨ address = 0) :
    l.addressByte (address ++ bit) ack = inPhase (.ignore none) l := by
  obtain ⟨-, place, -⟩ := address_fields address bit
  unfold Lane.addressByte
  dsimp only
  rw [place]
  by_cases zero : address = 0
  · rw [if_pos zero]
    rfl
  · rw [if_neg zero, h.resolve_right zero]
    rfl

/-- The address byte of a seven-bit transfer (R44). -/
theorem addressByte_seven {address : BitVec 7} (bit : BitVec 1) {l : Lane} (h : address ≠ 0)
    (ht : ¬ (l.cfg.tenBit = true ∧ address.extractLsb' 2 5 = 0x1E)) : l.addressByte (address ++ bit) true =
      if bit.getLsbD 0 then l.beginRead (address.setWidth 10) else inPhase (.pointer (address.setWidth 10) []) l := by
  obtain ⟨direction, place, top⟩ := address_fields address bit
  unfold Lane.addressByte
  dsimp only
  rw [direction, place, top, if_neg h, if_neg (by simp), if_neg fun hc => ht hc.symm]
  rfl

/-- The first byte of a ten-bit address (R45, R53). -/
theorem addressByte_ten (high : BitVec 2) (bit : BitVec 1) {l : Lane} (h : l.cfg.tenBit = true) :
    l.addressByte (0x1E#5 ++ high ++ bit) true =
      if bit.getLsbD 0 then
        (match l.two.frameTarget with
        | some t => if t.extractLsb' 8 2 = high then l.beginRead t else inPhase (.ignore none) l
        | none => inPhase (.ignore none) l)
      else inPhase (.addressLow high) l := by
  obtain ⟨direction, place, top, bits⟩ := tenBit_fields high bit
  unfold Lane.addressByte
  dsimp only
  rw [direction, top, bits, if_neg place, if_neg (by simp), if_pos ⟨rfl, h⟩]
  cases l.two.frameTarget <;> rfl

/-! ### Pointers and data -/

theorem joinByte_more {i : Fin 4} {t : BitVec 10} {dir : Dir} {bs : List Byte} {b : Byte} {l : Lane}
    (h : bs.length + 1 < l.cfg.w) : l.joinByte i t dir bs b = inPhase (.data t dir (bs ++ [b])) l := by
  rw [Lane.joinByte, if_neg (by rw [List.length_append, List.length_singleton]; omega)]
  rfl

theorem produce_eq (p : Posting) (l : Lane) :
    l.produce p = if l.slot = none then { l with slot := some p } else flagged 0x001 l := by
  rw [Lane.produce]
  cases l.slot <;> rfl

theorem joinByte_last {i : Fin 4} {t : BitVec 10} {dir : Dir} {bs : List Byte} {b : Byte} {l : Lane} {p : BitVec 16}
    (h : bs.length + 1 = l.cfg.w) (hp : (l.pointers.find? fun e => e.1 = t) = some (t, p)) : l.joinByte i t dir bs b =
      inPhase (.data t dir [])
        { (if l.slot = none then
            { l with slot := some ⟨⟨i, t, p⟩, dir, orderedValue l.cfg.byteOrder (bs ++ [b]), l.cfg.w⟩ }
          else flagged 0x001 l) with
          pointers := stepPointer (2 ^ (8 * l.cfg.a)) t l.pointers } := by
  rw [Lane.joinByte, if_pos (by rw [List.length_append, List.length_singleton]; exact h), Lane.postAtPointer, pointerOf_some hp,
    assemble_eq, produce_eq, twoPhase_eq]
  by_cases free : l.slot = none
  · rw [if_pos free, if_pos free]
    rfl
  · rw [if_neg free, if_neg free]
    rfl

/-- A data byte that joins its register (R50, R52). -/
theorem dataByte_joins {i : Fin 4} {t : BitVec 10} {dir : Dir} {bs : List Byte} {b : Byte} {ack : Bool} {l m : Lane}
    {rest : List Byte} (h : dir = .read ∨ ack = true) (hj : l.joinByte i t dir bs b = inPhase (.data t dir rest) m) :
    l.dataByte i t dir bs b ack = inPhase (if ack then .data t dir rest else .ignore (some rest)) m := by
  cases dir with
  | write =>
    obtain rfl : ack = true := h.resolve_left nofun
    exact hj
  | read =>
    cases ack with
    | true => exact hj
    | false =>
      rw [Lane.dataByte, hj]
      rfl

theorem dataByte_refused (i : Fin 4) (t : BitVec 10) (bs : List Byte) (b : Byte) (l : Lane) :
    l.dataByte i t .write bs b false = inPhase (.ignore none) (flagged 0x010 l) := rfl

theorem pointerByte_refused (t : BitVec 10) (bs : List Byte) (b : Byte) (l : Lane) :
    l.pointerByte t bs b false = inPhase (.ignore none) (flagged 0x010 l) := rfl

theorem pointerByte_more {t : BitVec 10} {bs : List Byte} {b : Byte} {l : Lane} (h : bs.length + 1 < l.cfg.a) :
    l.pointerByte t bs b true = inPhase (.pointer t (bs ++ [b])) l := by
  rw [Lane.pointerByte, if_pos rfl, if_neg (by rw [List.length_append, List.length_singleton]; omega)]
  rfl

theorem pointerByte_last {t : BitVec 10} {bs : List Byte} {b : Byte} {l : Lane} (h : bs.length + 1 = l.cfg.a) :
    l.pointerByte t bs b true = { inPhase (.data t .write []) l with
      pointers := pointerInFront t ((orderedValue .big (bs ++ [b])).setWidth 16) l.pointers } := by
  have value : BitVec.ofNat 16 (beNat (bs ++ [b])) = (orderedValue .big (bs ++ [b])).setWidth 16 := by
    refine BitVec.eq_of_toNat_eq ?_
    rw [← assemble_eq, assemble, BitVec.toNat_setWidth, BitVec.toNat_ofNat, BitVec.toNat_ofNat]
    omega
  rw [Lane.pointerByte, if_pos rfl, if_pos (by rw [List.length_append, List.length_singleton]; exact h), value]
  rfl

/-! ### A byte cell in each phase -/

section
variable {i : Fin 4} {l : Lane} (hb : l.two.bits = [])
include hb

theorem afterAddress (hp : l.two.phase = .address) (b : Byte) (ack : Bool) :
    afterByteCell i b ack l = l.addressByte b ack := by
  rw [afterByteCell_eq i b ack hb, Lane.twoByte, hp]

theorem afterAddressLow {high : BitVec 2} (hp : l.two.phase = .addressLow high) (b : Byte) (ack : Bool) :
    afterByteCell i b ack l = l.addressLowByte high b ack := by
  rw [afterByteCell_eq i b ack hb, Lane.twoByte, hp]

theorem afterPointer {t : BitVec 10} {bs : List Byte} (hp : l.two.phase = .pointer t bs) (b : Byte) (ack : Bool) :
    afterByteCell i b ack l = l.pointerByte t bs b ack := by
  rw [afterByteCell_eq i b ack hb, Lane.twoByte, hp]

theorem afterData {t : BitVec 10} {dir : Dir} {bs : List Byte} (hp : l.two.phase = .data t dir bs) (b : Byte) (ack : Bool) :
    afterByteCell i b ack l = l.dataByte i t dir bs b ack := by
  rw [afterByteCell_eq i b ack hb, Lane.twoByte, hp]

end

/-- A clock rise samples the data of a transfer that is decoded, and the fall takes the bit (R38). -/
theorem twoWire_clock {i : Fin 4} {l : Lane} {lv lv' lv'' : Levels} (hd : l.decodesTransfer = true)
    (h : lv l.cfg.pins.twoClock = false) (h' : lv' l.cfg.pins.twoClock = true) (h'' : lv'' l.cfg.pins.twoClock = false) :
    (twoWireChange i lv' lv'' (twoWireChange i lv lv' l).lane).lane =
      Lane.twoBit i (lv' l.cfg.pins.twoData) { l with two := { l.two with sample := none } } := by
  have rise : (twoWireChange i lv lv' l).lane = { l with two := { l.two with sample := some (lv' l.cfg.pins.twoData) } } := by
    rw [twoWireChange, h, h', hd]
    rfl
  rw [rise, twoWireChange]
  dsimp only
  rw [h', h'']
  rfl

theorem orderedValue_one (order : ByteOrder) (b : Byte) : orderedValue order [b] = b.setWidth 32 := by
  refine BitVec.eq_of_toNat_eq ?_
  unfold orderedValue
  cases order <;> simp

/-- The pointer in front stepped in a range of one address byte. -/
theorem stepped_front (t : BitVec 10) (pointer : Byte) (ptrs : List (BitVec 10 × BitVec 16)) :
    stepPointer (2 ^ (8 * 1)) t (pointerInFront t (pointer.setWidth 16) ptrs)
      = (t, (pointer + 1).setWidth 16) :: (ptrs.filter fun e => e.1 ≠ t).take 7 := by
  have small := pointer.isLt
  have next : stepRegister (2 ^ (8 * 1)) (pointer.setWidth 16) = (pointer + 1).setWidth 16 := by
    refine BitVec.eq_of_toNat_eq ?_
    unfold stepRegister
    split <;> simp at * <;> omega
  rw [stepPointer, pointerInFront, List.map_cons, if_pos rfl, next]
  refine congrArg _ ((List.map_congr_left fun e he => if_neg ?_).trans (List.map_id _))
  simpa using (List.mem_filter.1 (List.mem_of_mem_take he)).2

/-- Settles O50: each byte by its phase's lemmas, a byte cell by `afterByteCell_eq`. -/
theorem twoWireWritePosts : Obligations.TwoWireWritePosts := by
  refine ⟨fun i l lv lv' lv'' => twoWire_clock, ?_, fun i l hb hp => ⟨fun address bit ack h => ?_, fun address h ht => ⟨?_, ?_, ?_⟩,
    fun high low ht => ⟨?_, ?_, ?_, fun h lo hf => ⟨?_, ?_, ?_⟩⟩⟩, fun i l t bs b hb hp => ⟨?_, fun hm => ?_, fun hm => ?_⟩,
    fun i l t dir bs b ack p hb hp hf => ⟨?_, fun hj hm => ?_, fun hj hm => ?_⟩⟩
  · intro i l address pointer data hst htwo hw ha hten hslot h
    have seven : ¬ (l.cfg.tenBit = true ∧ address.extractLsb' 2 5 = 0x1E) := by rw [hten]; exact fun hc => nomatch hc.1
    have first : afterByteCell i (address ++ 0#1) true l = inPhase (.pointer (address.setWidth 10) []) l :=
      (afterAddress (by rw [htwo]) (by rw [htwo]) _ _).trans (addressByte_seven 0#1 h seven)
    have second := (afterPointer (i := i) (l := inPhase (.pointer (address.setWidth 10) []) l) (by exact congrArg TwoWire.bits htwo)
      rfl pointer true).trans (pointerByte_last ha.symm)
    obtain ⟨m, hm⟩ : ∃ m, afterByteCell i pointer true (inPhase (.pointer (address.setWidth 10) []) l) = m := ⟨_, rfl⟩
    rw [hm] at second
    have front : (m.pointers.find? fun e => e.1 = address.setWidth 10)
        = some (address.setWidth 10, (orderedValue .big [pointer]).setWidth 16) := by
      rw [second]
      exact List.find?_cons_of_pos (by simp)
    have third := (afterData (i := i) (l := m) (by rw [second]; exact congrArg TwoWire.bits htwo) (by rw [second]; rfl) data
      true).trans (dataByte_joins (.inr rfl) (joinByte_last (by rw [second]; exact hw.symm) front))
    have whole : (byteBits (address ++ 0#1) ++ [false] ++ byteBits pointer ++ [false] ++ byteBits data ++ [false]).foldl
        (fun l b => l.twoBit i b) l
          = afterByteCell i data true (afterByteCell i pointer true (afterByteCell i (address ++ 0#1) true l)) := by
      simp only [afterByteCell, List.foldl_append]
      rfl
    have free : m.slot = none := by rw [second]; exact hslot
    rw [whole, first, hm, third, if_pos rfl, if_pos free, second]
    dsimp only [inPhase]
    rw [htwo, hw, ha, List.nil_append, List.nil_append, orderedValue_one, orderedValue_one,
      BitVec.setWidth_setWidth_of_le pointer (by decide), stepped_front]
  · rw [afterAddress hb hp]
    exact addressByte_ignored address bit l h
  · rw [afterAddress hb hp]
    exact addressByte_seven 0#1 h ht
  · intro p hf
    rw [afterAddress hb hp]
    exact (addressByte_seven 1#1 h ht).trans (beginRead_known hf)
  · intro hf
    rw [afterAddress hb hp]
    exact (addressByte_seven 1#1 h ht).trans (beginRead_unknown hf)
  · have first : afterByteCell i (0x1E#5 ++ high ++ 0#1) true l = inPhase (.addressLow high) l :=
      (afterAddress hb hp _ _).trans (addressByte_ten high 0#1 ht)
    rw [first, afterAddressLow (by exact hb) rfl]
    rfl
  · have first : afterByteCell i (0x1E#5 ++ high ++ 0#1) true l = inPhase (.addressLow high) l :=
      (afterAddress hb hp _ _).trans (addressByte_ten high 0#1 ht)
    rw [first, afterAddressLow (by exact hb) rfl]
    rfl
  · intro hf
    rw [afterAddress hb hp]
    refine (addressByte_ten high 1#1 ht).trans ?_
    rw [hf]
    rfl
  · intro hne
    rw [afterAddress hb hp]
    refine (addressByte_ten high 1#1 ht).trans ?_
    rw [hf]
    exact if_neg fun same => hne ((tenBitTarget_fields h lo).symm.trans same)
  · rintro p rfl hk
    rw [afterAddress hb hp]
    refine (addressByte_ten h 1#1 ht).trans ?_
    rw [hf]
    exact (if_pos (tenBitTarget_fields h lo)).trans (beginRead_known hk)
  · rintro rfl hk
    rw [afterAddress hb hp]
    refine (addressByte_ten h 1#1 ht).trans ?_
    rw [hf]
    exact (if_pos (tenBitTarget_fields h lo)).trans (beginRead_unknown hk)
  · rw [afterPointer hb hp]
    exact pointerByte_refused t bs b l
  · rw [afterPointer hb hp]
    exact pointerByte_more hm
  · rw [afterPointer hb hp]
    exact pointerByte_last hm
  · rintro rfl rfl
    rw [afterData hb hp]
    exact dataByte_refused i t bs b l
  · rw [afterData hb hp]
    exact dataByte_joins hj (joinByte_more hm)
  · rw [afterData hb hp]
    exact dataByte_joins hj (joinByte_last hm hf)

end Sys2Proof.Machine
end

section
/-! PROOF. Management lanes: the preamble and the frame, bit by bit (R24, R72 to R80). -/

namespace Sys2Proof.Machine

/-! ### The preamble -/

theorem requiredRun_eq (c : LaneConfig) : requiredRun c = if c.preamble = 0 then 1 else c.preamble := by
  unfold requiredRun
  split <;> omega

/-! ### The bits of a frame -/

/-- The lane with its management frame open in this phase. -/
def inMgmt (ph : MgmtPhase) (l : Lane) : Lane := { l with state := .inFrame, mgmt := ⟨0, false, ph⟩ }

/-- The lane after a management frame's bits. -/
def afterMgmtBits (i : Fin 4) (bits : List Bool) (l : Lane) : Lane := bits.foldl (fun l b => (l.mgmtBit i b).lane) l

theorem afterMgmtBits_append (i : Fin 4) (xs ys : List Bool) (l : Lane) :
    afterMgmtBits i (xs ++ ys) l = afterMgmtBits i ys (afterMgmtBits i xs l) := List.foldl_append

/-- Bits that a phase collects up to its number of them, and what it does with the whole. -/
theorem afterMgmtBits_collect {i : Fin 4} {n : Nat} {ph : List Bool → MgmtPhase} {done : List Bool → Lane → Decoded}
    (hph : ∀ bits b l, (inMgmt (ph bits) l).mgmtBit i b = if (bits ++ [b]).length = n then done (bits ++ [b]) (inMgmt (ph bits) l)
      else ⟨inMgmt (ph (bits ++ [b])) l, false⟩)
    (hd : ∀ all bits l, done all (inMgmt (ph bits) l) = done all (inMgmt (ph []) l)) {bits : List Bool} (hn : bits.length = n)
    (h0 : 0 < n) (l : Lane) : afterMgmtBits i bits (inMgmt (ph []) l) = (done bits (inMgmt (ph []) l)).lane := by
  have walk (rest taken : List Bool) (hl : taken.length + rest.length < n) :
      afterMgmtBits i rest (inMgmt (ph taken) l) = inMgmt (ph (taken ++ rest)) l := by
    induction rest generalizing taken with
    | nil => rw [List.append_nil]; rfl
    | cons b rest ih =>
      rw [List.length_cons] at hl
      have one : ((inMgmt (ph taken) l).mgmtBit i b).lane = inMgmt (ph (taken ++ [b])) l := by
        rw [hph, if_neg (by rw [List.length_append, List.length_singleton]; omega)]
      have more := ih (taken ++ [b]) (by rw [List.length_append, List.length_singleton]; omega)
      rw [List.append_assoc] at more
      rw [afterMgmtBits, List.foldl_cons, one]
      exact more
  rcases List.eq_nil_or_concat bits with rfl | ⟨most, last, rfl⟩
  · exact absurd hn (by simpa using h0.ne)
  · rw [List.concat_eq_append] at hn ⊢
    rw [List.length_append, List.length_singleton] at hn
    rw [afterMgmtBits_append, walk most [] (by simpa using Nat.lt_of_lt_of_eq (Nat.lt_succ_self _) hn), List.nil_append]
    show ((inMgmt (ph most) l).mgmtBit i last).lane = _
    rw [hph, if_pos (by rw [List.length_append]; exact hn), hd]

section
variable (i : Fin 4) (l : Lane)

theorem afterOperation {bits : List Bool} (h : bits.length = 2) :
    afterMgmtBits i bits (inMgmt (.operation []) l) = ((inMgmt (.operation []) l).mgmtOperation bits).lane :=
  afterMgmtBits_collect (done := Lane.mgmtOperation) (fun _ _ _ => rfl)
    (fun all bits l => by unfold Lane.mgmtOperation; split <;> rfl) h (by decide) l

theorem afterDevice (dir : Dir) {bits : List Bool} (h : bits.length = 5) :
    afterMgmtBits i bits (inMgmt (.device dir []) l) = inMgmt (.register dir (bitsNat bits) []) l :=
  afterMgmtBits_collect (done := fun all l => .quiet (l.mgmtPhase (.register dir (bitsNat all) []))) (fun _ _ _ => rfl)
    (fun _ _ _ => rfl) h (by decide) l

theorem afterRegister (dir : Dir) (device : Nat) {bits : List Bool} (h : bits.length = 5) :
    afterMgmtBits i bits (inMgmt (.register dir device []) l) = inMgmt (.turnaround dir device (bitsNat bits) []) l :=
  afterMgmtBits_collect (done := fun all l => .quiet (l.mgmtPhase (.turnaround dir device (bitsNat all) []))) (fun _ _ _ => rfl)
    (fun _ _ _ => rfl) h (by decide) l

theorem afterTurnaround (dir : Dir) (device register : Nat) (t0 t1 : Bool) :
    afterMgmtBits i [t0, t1] (inMgmt (.turnaround dir device register []) l) =
      if dir = .read ∧ t1 = true then { flagged 0x080 l with state := .seeking, mgmt := ⟨0, false, .operation []⟩ }
      else inMgmt (.data dir device register []) l := by
  have whole : afterMgmtBits i [t0, t1] (inMgmt (.turnaround dir device register []) l)
      = ((inMgmt (.turnaround dir device register []) l).mgmtTurnaround dir device register [t0, t1]).lane := rfl
  rw [whole]
  unfold Lane.mgmtTurnaround
  cases dir <;> cases t1 <;> rfl

theorem afterDataBits (dir : Dir) (device register : Nat) {bits : List Bool} (h : bits.length = 16) :
    afterMgmtBits i bits (inMgmt (.data dir device register []) l)
      = ((inMgmt (.data dir device register []) l).mgmtClose i dir device register bits).lane :=
  afterMgmtBits_collect (done := Lane.mgmtClose i dir device register) (fun _ _ _ => rfl)
    (fun all bits l => by unfold Lane.mgmtClose Lane.produce; cases h : l.slot <;> simp [inMgmt, h, Lane.setFlag]) h (by decide) l

end

/-! ### Numbers -/

theorem bitsNat_five : ∀ x : BitVec 5, bitsNat ((List.range 5).map fun n => x.getLsbD (4 - n)) = x.toNat := by
  decide +kernel

theorem mgmtBytes_eq (value : BitVec 16) : mgmtBytes ((List.range 16).map fun n => value.getLsbD (15 - n))
    = [value.extractLsb' 8 8, value.extractLsb' 0 8] := by
  have high : ((List.range 16).map fun n => value.getLsbD (15 - n)).take 8 = byteBits (value.extractLsb' 8 8) := by
    simp [byteBits, List.range, List.range.loop]
  have low : ((List.range 16).map fun n => value.getLsbD (15 - n)).drop 8 = byteBits (value.extractLsb' 0 8) := by
    simp [byteBits, List.range, List.range.loop]
  rw [mgmtBytes, high, low, byteOf_byteBits, byteOf_byteBits]

/-! ### The frame -/

theorem mgmtBit_idle {i : Fin 4} {l : Lane} (hs : l.state = .idle) (b : Bool) : l.mgmtBit i b = .quiet (l.mgmtIdle b) := by
  rw [Lane.mgmtBit, hs]

theorem mgmtBit_seeking {i : Fin 4} {l : Lane} (hs : l.state = .seeking) (b : Bool) : l.mgmtBit i b = .quiet (l.mgmtSeek b) := by
  rw [Lane.mgmtBit, hs]

theorem mgmtOpens {i : Fin 4} {l : Lane} (hs : l.state = .idle) (hm : l.mgmt.startMark = true) :
    l.mgmtBit i true = ⟨inMgmt (.operation []) l, false⟩ := by
  rw [mgmtBit_idle hs]
  unfold Lane.mgmtIdle
  rw [hm]
  rfl

/-- The operation bits of a direction (R76). -/
def operationBits (dir : Dir) : List Bool :=
  match dir with
  | .read => [true, false]
  | .write => [false, true]

/-- The bits of a frame from its start pattern to its register (R75, R76, R77). -/
def headerBits (dir : Dir) (device register : BitVec 5) : List Bool :=
  [true] ++ operationBits dir ++ (List.range 5).map (fun n => device.getLsbD (4 - n))
    ++ (List.range 5).map (fun n => register.getLsbD (4 - n))

theorem afterHeader {i : Fin 4} {l : Lane} (hs : l.state = .idle) (hm : l.mgmt.startMark = true) (dir : Dir)
    (device register : BitVec 5) : afterMgmtBits i (headerBits dir device register) l
      = inMgmt (.turnaround dir device.toNat register.toNat []) l := by
  have opened : afterMgmtBits i [true] l = inMgmt (.operation []) l := congrArg Decoded.lane (mgmtOpens hs hm)
  have operation : afterMgmtBits i (operationBits dir) (inMgmt (.operation []) l) = inMgmt (.device dir []) l := by
    cases dir <;> exact afterOperation i l rfl
  rw [headerBits, afterMgmtBits_append, afterMgmtBits_append, afterMgmtBits_append, opened, operation, afterDevice i l dir (by simp),
    afterRegister i l dir _ (by simp), bitsNat_five, bitsNat_five]

/-- Settles O53: the preamble case by case, the frame phase by phase. -/
theorem managementFramePosts : Obligations.ManagementFramePosts := by
  refine ⟨fun i l lv lv' hk hs => ?_, ?_, ?_⟩
  · unfold laneChange managementChange
    rw [if_neg hs, hk]
    cases lv l.cfg.pins.mgmtClock <;> cases lv' l.cfg.pins.mgmtClock <;> rfl
  · rintro i l lost required longer rfl rfl rfl
    rw [← requiredRun_eq]
    refine ⟨fun hs => ?_, fun hs hm => ?_, fun hs hm => ?_⟩
    · rw [mgmtBit_seeking hs, mgmtBit_seeking hs]
      exact ⟨rfl, rfl⟩
    · rw [mgmtBit_idle hs, mgmtBit_idle hs]
      unfold Lane.mgmtIdle
      rw [hm]
      exact ⟨rfl, rfl⟩
    · refine ⟨mgmtOpens hs hm, ?_⟩
      rw [mgmtBit_idle hs]
      unfold Lane.mgmtIdle
      rw [hm]
      rfl
  · rintro i l dir device register value t0 t1 bits hs hm hbits
    obtain rfl : bits = headerBits dir device register ++ [t0, t1] := by
      rw [hbits]
      cases dir <;> rfl
    refine ⟨fun h => ?_, ?_, ?_⟩
    · refine (afterMgmtBits_append i _ _ l).trans ?_
      rw [afterMgmtBits_append, afterHeader hs hm, afterTurnaround, if_neg (by rintro ⟨rfl, rfl⟩; simp at h),
        afterDataBits i l dir _ _ (by simp), Lane.mgmtClose, mgmtBytes_eq, assemble_eq, produce_eq,
        BitVec.ofNat_toNat, BitVec.ofNat_toNat, inMgmt]
      by_cases free : l.slot = none
      · rw [if_pos free, if_pos free, hs]
        rfl
      · rw [if_neg free, if_neg free, flagged, flagged, hs]
        rfl
    · rintro rfl rfl
      refine (afterMgmtBits_append i _ _ l).trans ?_
      rw [afterHeader hs hm, afterTurnaround, if_pos ⟨rfl, rfl⟩]
      rfl
    · refine (afterMgmtBits_append i [true] [t0, t0] l).trans ?_
      have opened : afterMgmtBits i [true] l = inMgmt (.operation []) l := congrArg Decoded.lane (mgmtOpens hs hm)
      rw [opened, afterOperation i l rfl]
      cases t0 <;> rfl

end Sys2Proof.Machine
end

section
/-! PROOF. Frames open, contend and close on two-wire and four-wire lanes, and a four-wire frame takes its bits (R39, R41, R42,
R54, R55, R57 to R61, R67 to R69). -/

namespace Sys2Proof.Machine

theorem laneChange_twoWire {i : Fin 4} {l : Lane} (hk : l.cfg.kind = .twoWire) (hs : l.state ≠ .off) (lv lv' : Levels) :
    laneChange i lv lv' l = twoWireChange i lv lv' l := by
  rw [laneChange, if_neg hs, hk]

theorem laneChange_fourWire {i : Fin 4} {l : Lane} (hk : l.cfg.kind = .fourWire) (hs : l.state ≠ .off) (lv lv' : Levels) :
    laneChange i lv lv' l = fourWireChange i lv lv' l := by
  rw [laneChange, if_neg hs, hk]

/-! ### Two-wire conditions -/

section
variable {i : Fin 4} {l : Lane} {lv lv' : Levels} (hk : l.cfg.kind = .twoWire) (hs : l.state ≠ .off)
  (h : lv l.cfg.pins.twoClock = true) (h' : lv' l.cfg.pins.twoClock = true)
include hk hs h h'

theorem laneChange_start (hd : lv l.cfg.pins.twoData = true) (hd' : lv' l.cfg.pins.twoData = false) :
    laneChange i lv lv' l = ⟨l.startCondition, false⟩ := by
  rw [laneChange_twoWire hk hs, twoWireChange, h, h', hd, hd']
  rfl

theorem laneChange_stop (hd : lv l.cfg.pins.twoData = false) (hd' : lv' l.cfg.pins.twoData = true) :
    laneChange i lv lv' l = l.stopCondition := by
  rw [laneChange_twoWire hk hs, twoWireChange, h, h', hd, hd']
  rfl

end

theorem startCondition_opens {l : Lane} (h : l.state = .seeking ∨ l.state = .idle) :
    l.startCondition = { l with state := .inFrame, two := ⟨[], none, .address, none⟩ } := by
  rw [Lane.startCondition]
  rcases h with h | h <;> rw [h] <;> rfl

theorem startCondition_repeated {l : Lane} (h : l.state = .inFrame) : l.startCondition = l.endTransfer.openTransfer := by
  rw [Lane.startCondition, h]

theorem stopCondition_closes {l : Lane} (h : l.state = .inFrame) :
    l.stopCondition = ⟨{ l.endTransfer with state := .idle, two := ⟨[], none, .address, none⟩ }, true⟩ := by
  rw [Lane.stopCondition, h]
  rfl

/-- A transfer that ends between two registers sets no flag (R54). -/
theorem endTransfer_clean {l : Lane} {t : BitVec 10} {dir : Dir} (h : l.two.phase = .data t dir []) (hb : l.two.bits = []) :
    l.endTransfer = l := by
  unfold Lane.endTransfer
  rw [h, hb]

theorem endTransfer_partial {l : Lane} {t : BitVec 10} {dir : Dir} {b : Byte} {bs : List Byte}
    (h : l.two.phase = .data t dir (b :: bs) ∨ l.two.phase = .ignore (some (b :: bs))) (hb : l.two.bits = []) :
    l.endTransfer = flagged 0x002 l := by
  unfold Lane.endTransfer
  rcases h with h | h <;> rw [h, hb] <;> rfl

theorem endTransfer_insideByte {l : Lane} {t : BitVec 10} {dir : Dir} {bytes : List Byte} {b : Bool} {bs : List Bool}
    (h : l.two.phase = .data t dir bytes) (hb : l.two.bits = b :: bs) : l.endTransfer = flagged 0x004 l := by
  unfold Lane.endTransfer
  rw [h, hb]
  rfl

/-! ### Selects -/

theorem mem_selects {c : LaneConfig} {n : Fin 4} : n ∈ c.selects ↔ n.val < c.selectCount := by
  unfold LaneConfig.selects
  rw [List.mem_filter, decide_eq_true_eq]
  exact and_iff_right (by revert n; decide)

theorem someReleased_iff {c : LaneConfig} {lv lv' : Levels} : someReleased c lv lv' = true
    ↔ ∃ n : Fin 4, n.val < c.selectCount ∧ lv (c.pins.sel[n]) = false ∧ lv' (c.pins.sel[n]) = true := by
  simp [someReleased, LaneConfig.active, mem_selects]

theorem someActivated_iff {c : LaneConfig} {lv lv' : Levels} : someActivated c lv lv' = true
    ↔ ∃ n : Fin 4, n.val < c.selectCount ∧ lv (c.pins.sel[n]) = true ∧ lv' (c.pins.sel[n]) = false := by
  simp [someActivated, LaneConfig.active, mem_selects]

theorem someKept_iff {c : LaneConfig} {lv lv' : Levels} : someKept c lv lv' = true
    ↔ ∃ n : Fin 4, n.val < c.selectCount ∧ lv (c.pins.sel[n]) = false ∧ lv' (c.pins.sel[n]) = false := by
  simp [someKept, LaneConfig.active, mem_selects]

/-- The one select that is active. -/
theorem active_one {c : LaneConfig} {lv : Levels} {sel : Fin 4} (hs : sel.val < c.selectCount)
    (h : ∀ n : Fin 4, n.val < c.selectCount → (lv (c.pins.sel[n]) = false ↔ n = sel)) :
    c.selects.filter (c.active lv) = [sel] := by
  have single : c.selects.filter (c.active lv) = ([0, 1, 2, 3] : List (Fin 4)).filter (· = sel) := by
    rw [LaneConfig.selects, List.filter_filter]
    refine List.filter_congr fun n _ => ?_
    rw [Bool.eq_iff_iff, Bool.and_eq_true, decide_eq_true_eq, decide_eq_true_eq, LaneConfig.active, Bool.not_eq_true']
    exact ⟨fun ⟨ha, hn⟩ => (h n hn).1 ha, fun hn => hn ▸ ⟨(h sel hs).2 rfl, hs⟩⟩
  have all : ∀ sel : Fin 4, ([0, 1, 2, 3] : List (Fin 4)).filter (· = sel) = [sel] := by decide
  rw [single, all]

theorem active_two {c : LaneConfig} {lv : Levels} {a b : Fin 4} (hne : a ≠ b) (ha : a.val < c.selectCount)
    (hb : b.val < c.selectCount) (la : lv (c.pins.sel[a]) = false) (lb : lv (c.pins.sel[b]) = false) (n : Fin 4) :
    c.selects.filter (c.active lv) ≠ [n] := by
  intro one
  have at' (x : Fin 4) (hx : x.val < c.selectCount) (lx : lv (c.pins.sel[x]) = false) : x = n := by
    have : x ∈ c.selects.filter (c.active lv) := List.mem_filter.2 ⟨mem_selects.2 hx, by rw [LaneConfig.active, lx]; rfl⟩
    rw [one] at this
    exact List.mem_singleton.1 this
  exact hne ((at' a ha la).trans (at' b hb lb).symm)

/-! ### The four steps of a four-wire change -/

theorem fourSample_closed {i : Fin 4} {l : Lane} (h : l.state ≠ .inFrame ∨ l.four.phase = .contended) (lv lv' : Levels) :
    l.fourSample i lv lv' = l := by
  have none : l.takesBits = false := by
    rw [Lane.takesBits]
    rcases h with h | h <;> simp [h]
  rw [Lane.fourSample, none]
  exact if_neg fun hc => nomatch hc.1

theorem fourSample_still {i : Fin 4} {l : Lane} {lv lv' : Levels} (h : lv l.cfg.pins.fourClock = lv' l.cfg.pins.fourClock) :
    l.fourSample i lv lv' = l := if_neg fun ⟨_, _, hc, _⟩ => hc h

theorem fourArm_closed {l : Lane} {lv' : Levels} (h : l.state ≠ .inFrame) : l.fourArm lv' = l := if_neg fun hc => h hc.1

theorem fourActivations_none {l : Lane} {lv lv' : Levels} (h : someActivated l.cfg lv lv' = false) :
    l.fourActivations lv lv' = l := by
  rw [Lane.fourActivations, h]
  rfl

theorem closeFour_eq (l : Lane) : l.closeFour = ⟨closedFour l, true⟩ := by
  unfold Lane.closeFour Lane.judgeFrame closedFour
  cases l.four.phase with
  | command bytes => rfl
  | contended => rfl
  | latency a n => cases l.four.cBits <;> rfl
  | data a bytes => cases l.four.cBits <;> cases bytes <;> rfl

theorem closedFour_armed (l : Lane) (b : Bool) : closedFour { l with four := { l.four with armed := b } } = closedFour l := by
  unfold closedFour
  cases hp : l.four.phase with
  | command bytes => rfl
  | contended => rfl
  | latency a n =>
    dsimp only
    split <;> rfl
  | data a bytes =>
    dsimp only
    split
    · rfl
    · split <;> rfl

theorem closedFour_fourArm (l : Lane) (lv' : Levels) : closedFour (l.fourArm lv') = closedFour l := by
  unfold Lane.fourArm
  split
  · exact closedFour_armed l true
  · rfl

theorem closedFour_fields (l : Lane) : (closedFour l).state = .idle ∧ (closedFour l).cfg = l.cfg := by
  unfold closedFour
  refine ⟨rfl, ?_⟩
  cases l.four.phase with
  | command bytes => rfl
  | contended => rfl
  | latency a n =>
    dsimp only
    split <;> rfl
  | data a bytes =>
    dsimp only
    split
    · rfl
    · split <;> rfl

theorem fourActivations_opens {l : Lane} {lv lv' : Levels} {sel : Fin 4} (hs : l.state = .idle) (hc : sel.val < l.cfg.selectCount)
    (hb : lv (l.cfg.pins.sel[sel]) = true)
    (h : ∀ n : Fin 4, n.val < l.cfg.selectCount → (lv' (l.cfg.pins.sel[n]) = false ↔ n = sel)) :
    l.fourActivations lv lv' = { l with
      state := .inFrame
      four := ⟨decide (lv' l.cfg.pins.fourClock = idleLevel l.cfg.clockMode), [], [], sel, .command []⟩ } := by
  have active : someActivated l.cfg lv lv' = true := someActivated_iff.2 ⟨sel, hc, hb, (h sel hc).2 rfl⟩
  rw [Lane.fourActivations, active, if_pos rfl, hs, active_one hc h]
  rfl

theorem fourActivations_contends {l : Lane} {lv lv' : Levels} {a b : Fin 4} (hs : l.state = .idle) (hne : a ≠ b)
    (ha : a.val < l.cfg.selectCount) (hb : b.val < l.cfg.selectCount) (before : lv (l.cfg.pins.sel[a]) = true)
    (la : lv' (l.cfg.pins.sel[a]) = false) (lb : lv' (l.cfg.pins.sel[b]) = false) :
    l.fourActivations lv lv' = { flagged 0x040 l with
      state := .inFrame
      four := ⟨decide (lv' l.cfg.pins.fourClock = idleLevel l.cfg.clockMode), [], [], l.four.target, .contended⟩ } := by
  have active : someActivated l.cfg lv lv' = true := someActivated_iff.2 ⟨a, ha, before, la⟩
  have several := active_two hne ha hb la lb
  rw [Lane.fourActivations, active, if_pos rfl, hs]
  dsimp only
  split
  · next sel one => exact absurd one (several sel)
  · rfl

theorem fourActivations_second {l : Lane} {lv lv' : Levels} {n : Fin 4} (hs : l.state = .inFrame) (hp : l.four.phase ≠ .contended)
    (hc : n.val < l.cfg.selectCount) (before : lv (l.cfg.pins.sel[n]) = true) (after : lv' (l.cfg.pins.sel[n]) = false) :
    l.fourActivations lv lv' = { l with
      state := .inFrame, four := ⟨l.four.armed, [], [], l.four.target, .contended⟩
      flags := l.flags ||| 0x040, notes := l.notes &&& ~~~0x040 } := by
  have active : someActivated l.cfg lv lv' = true := someActivated_iff.2 ⟨n, hc, before, after⟩
  rw [Lane.fourActivations, active, if_pos rfl, hs]
  exact if_neg hp

theorem fourReleases_own {l : Lane} {lv lv' : Levels} {t : Fin 4} (hs : l.state = .inFrame) (hp : l.four.phase ≠ .contended)
    (ht : l.four.target = t) (hb : lv (l.cfg.pins.sel[t]) = false) (ha : lv' (l.cfg.pins.sel[t]) = true) :
    l.fourReleases lv lv' = ⟨closedFour l, true⟩ := by
  subst ht
  rw [Lane.fourReleases, hs]
  dsimp only
  rw [if_neg hp, if_pos (by rw [LaneConfig.active, LaneConfig.active, hb, ha]; decide), closeFour_eq]

theorem fourReleases_keeps {l : Lane} {lv lv' : Levels} {t : Fin 4} (hs : l.state = .inFrame) (hp : l.four.phase ≠ .contended)
    (ht : l.four.target = t) (ha : lv' (l.cfg.pins.sel[t]) = false) : l.fourReleases lv lv' = ⟨l, false⟩ := by
  subst ht
  rw [Lane.fourReleases, hs]
  dsimp only
  rw [if_neg hp, if_neg fun hc => hc.2 (by rw [LaneConfig.active, ha]; rfl)]
  rfl

theorem fourReleases_idle {l : Lane} (hs : l.state = .idle) (lv lv' : Levels) : l.fourReleases lv lv' = ⟨l, false⟩ := by
  rw [Lane.fourReleases, hs]
  rfl

theorem fourReleases_seeking {l : Lane} {lv lv' : Levels} (hs : l.state = .seeking) : l.fourReleases lv lv' =
    if someReleased l.cfg lv lv' ∧ ¬ someKept l.cfg lv lv' then ⟨{ l with state := .idle }, false⟩ else ⟨l, false⟩ := by
  rw [Lane.fourReleases, hs]
  rfl

theorem fourReleases_contended {l : Lane} {lv lv' : Levels} (hs : l.state = .inFrame) (hp : l.four.phase = .contended) :
    l.fourReleases lv lv' =
      if someReleased l.cfg lv lv' ∧ ¬ someKept l.cfg lv lv' then ⟨closedFour l, true⟩ else ⟨l, false⟩ := by
  rw [Lane.fourReleases, hs]
  dsimp only
  rw [if_pos hp, closeFour_eq]
  rfl

/-! ### A four-wire change -/

theorem fourWireChange_eq {i : Fin 4} {l m : Lane} {lv lv' : Levels} {r : Decoded}
    (hm : (l.fourSample i lv lv').fourArm lv' = m) (hr : m.fourReleases lv lv' = r) :
    fourWireChange i lv lv' l = ⟨r.lane.fourActivations lv lv', r.completed⟩ := by
  rw [fourWireChange, hm, hr]

theorem fourWireChange_idle {i : Fin 4} {l : Lane} (hs : l.state = .idle) (lv lv' : Levels) :
    fourWireChange i lv lv' l = ⟨l.fourActivations lv lv', false⟩ := by
  have closed : l.state ≠ .inFrame := by rw [hs]; nofun
  exact fourWireChange_eq (by rw [fourSample_closed (.inl closed), fourArm_closed closed]) (fourReleases_idle hs lv lv')

theorem noneActivated {c : LaneConfig} {lv lv' : Levels}
    (h : ∀ n : Fin 4, n.val < c.selectCount → lv' (c.pins.sel[n]) = true ∨ lv (c.pins.sel[n]) = false) :
    someActivated c lv lv' = false := by
  rw [Bool.eq_false_iff, ne_eq, someActivated_iff]
  rintro ⟨n, hn, hb, ha⟩
  rcases h n hn with h | h
  · exact nomatch h.symm.trans ha
  · exact nomatch h.symm.trans hb

theorem fourStill_closed {i : Fin 4} {l : Lane} {lv lv' : Levels} (h : l.state ≠ .inFrame) :
    (l.fourSample i lv lv').fourArm lv' = l := by
  rw [fourSample_closed (.inl h), fourArm_closed h]

theorem fourArm_fields (l : Lane) (lv' : Levels) : (l.fourArm lv').state = l.state ∧ (l.fourArm lv').cfg = l.cfg
    ∧ (l.fourArm lv').four.phase = l.four.phase ∧ (l.fourArm lv').four.target = l.four.target := by
  unfold Lane.fourArm
  split <;> exact ⟨rfl, rfl, rfl, rfl⟩

theorem allReleased {c : LaneConfig} {lv lv' : Levels} {n : Fin 4} (hn : n.val < c.selectCount) (hb : lv (c.pins.sel[n]) = false)
    (ha : ∀ n : Fin 4, n.val < c.selectCount → lv' (c.pins.sel[n]) = true) : someReleased c lv lv' ∧ ¬ someKept c lv lv' :=
  ⟨someReleased_iff.2 ⟨n, hn, hb, ha n hn⟩, fun hc => by
    obtain ⟨m, hm, -, active⟩ := someKept_iff.1 hc
    exact nomatch (ha m hm).symm.trans active⟩

/-- Settles O51: two-wire conditions by `laneChange_start` and `laneChange_stop`, four-wire changes by their four steps. -/
theorem framesOpenAndClose : Obligations.FramesOpenAndClose := by
  refine fun i l lv lv' => ⟨fun hk h h' => ⟨fun hd hd' hs => ?_, fun hd hd' hs => ?_, fun hd hd' hs => ?_⟩,
    fun sel hk hsel => ⟨fun hs hl => ?_, fun a bytes hs hp ht hstill hclock hothers hown => ⟨fun hbits hrel hquiet => ?_,
      fun other ho hne hact hkept => ?_⟩⟩,
    fun hk => ⟨fun a b hs hidle hne ha hb la lb => ?_, fun hbefore hafter => ⟨fun hs => ?_, fun hs hp => ?_,
      fun hs hp hc hown hstill => ?_⟩, fun hkept => ⟨fun hs => ?_, fun hs hp harmed => ?_⟩⟩⟩
  · rw [laneChange_start hk (by rcases hs with hs | hs <;> rw [hs] <;> nofun) h h' hd hd', startCondition_opens hs]
  · rw [laneChange_start hk (by rw [hs]; nofun) h h' hd hd', startCondition_repeated hs]
    refine ⟨fun t dir hp hb => ?_, fun t dir b bs hp hb => ?_, fun t dir bytes b bs hp hb => ?_⟩
    · rw [endTransfer_clean hp hb]
      rfl
    · rw [endTransfer_partial hp hb]
      rfl
    · rw [endTransfer_insideByte hp hb]
      rfl
  · rw [laneChange_stop hk (by rw [hs]; nofun) h h' hd hd', stopCondition_closes hs]
    refine ⟨fun t dir hp hb => ?_, fun t dir b bs hp hb => ?_, fun t dir bytes b bs hp hb => ?_⟩
    · rw [endTransfer_clean hp hb]
    · rw [endTransfer_partial (.inl hp) hb]
      rfl
    · rw [endTransfer_insideByte hp hb]
      rfl
  · rw [laneChange_fourWire hk (by rw [hs]; nofun), fourWireChange_idle hs,
      fourActivations_opens hs hsel (hl sel hsel).1 fun n hn => (hl n hn).2]
  · subst ht
    have open' : l.four.phase ≠ .contended := by rw [hp]; nofun
    have still : (l.fourSample i lv lv').fourArm lv' = l := by
      rw [fourSample_still hstill]
      exact if_neg fun hc => hclock hc.2
    have quiet : someActivated (closedFour l).cfg lv lv' = false := by
      rw [(closedFour_fields l).2]
      refine noneActivated fun n hn => ?_
      by_cases hn' : n = l.four.target
      · exact .inr (hn' ▸ hown)
      · exact .inl (hquiet n hn hn')
    rw [laneChange_fourWire hk (by rw [hs]; nofun), fourWireChange_eq still (fourReleases_own hs open' rfl hown hrel),
      fourActivations_none quiet]
    unfold closedFour
    rw [hp]
    dsimp only
    rw [if_pos hbits]
    rfl
  · subst ht
    have open' : l.four.phase ≠ .contended := by rw [hp]; nofun
    have still : (l.fourSample i lv lv').fourArm lv' = l := by
      rw [fourSample_still hstill]
      exact if_neg fun hc => hclock hc.2
    rw [laneChange_fourWire hk (by rw [hs]; nofun), fourWireChange_eq still (fourReleases_keeps hs open' rfl hkept),
      fourActivations_second hs open' ho (hothers other ho hne) hact]
  · rw [laneChange_fourWire hk (by rw [hs]; nofun), fourWireChange_idle hs,
      fourActivations_contends hs hne ha hb (hidle a ha) la lb]
  · obtain ⟨n, hn, hb⟩ := hbefore
    rw [laneChange_fourWire hk (by rw [hs]; nofun), fourWireChange_eq (fourStill_closed (by rw [hs]; nofun))
      ((fourReleases_seeking hs).trans (if_pos (allReleased hn hb hafter)))]
    exact congrArg (fun m => (⟨m, false⟩ : Decoded)) (fourActivations_none (noneActivated fun n hn => .inl (hafter n hn)))
  · obtain ⟨n, hn, hb⟩ := hbefore
    obtain ⟨state, cfg, phase, -⟩ := fourArm_fields l lv'
    have released : (l.fourArm lv').fourReleases lv lv' = ⟨closedFour l, true⟩ := by
      rw [fourReleases_contended (state.trans hs) (phase.trans hp), cfg, if_pos (allReleased hn hb hafter), closedFour_fourArm]
    have quiet : someActivated (closedFour l).cfg lv lv' = false := by
      rw [(closedFour_fields l).2]
      exact noneActivated fun n hn => .inl (hafter n hn)
    rw [laneChange_fourWire hk (by rw [hs]; nofun), fourWireChange_eq (by rw [fourSample_closed (.inr hp)]) released,
      fourActivations_none quiet]
    unfold closedFour
    rw [hp]
  · obtain ⟨state, cfg, phase, target⟩ := fourArm_fields l lv'
    have released : (l.fourArm lv').fourReleases lv lv' = ⟨closedFour l, true⟩ := by
      rw [fourReleases_own (state.trans hs) (phase ▸ hp) target (by rw [cfg]; exact hown) (by rw [cfg]; exact hafter _ hc),
        closedFour_fourArm]
    have quiet : someActivated (closedFour l).cfg lv lv' = false := by
      rw [(closedFour_fields l).2]
      exact noneActivated fun n hn => .inl (hafter n hn)
    rw [laneChange_fourWire hk (by rw [hs]; nofun), fourWireChange_eq (by rw [fourSample_still hstill]) released,
      fourActivations_none quiet]
  · have stays : ¬ (someReleased l.cfg lv lv' ∧ ¬ someKept l.cfg lv lv') := fun hc => hc.2 (someKept_iff.2 hkept)
    rw [laneChange_fourWire hk (by rw [hs]; nofun), fourWireChange_eq (fourStill_closed (by rw [hs]; nofun))
      ((fourReleases_seeking hs).trans (if_neg stays))]
    unfold Lane.fourActivations
    rw [hs]
    exact congrArg (fun m => (⟨m, false⟩ : Decoded)) (ite_self l)
  · have stays : ¬ (someReleased l.cfg lv lv' ∧ ¬ someKept l.cfg lv lv') := fun hc => hc.2 (someKept_iff.2 hkept)
    have armed : (l.fourSample i lv lv').fourArm lv' = l := by
      rw [fourSample_closed (.inr hp), Lane.fourArm, ← harmed]
      exact ite_self l
    rw [laneChange_fourWire hk (by rw [hs]; nofun), fourWireChange_eq armed ((fourReleases_contended hs hp).trans (if_neg stays))]
    unfold Lane.fourActivations
    rw [hs, if_pos hp]
    exact congrArg (fun m => (⟨m, false⟩ : Decoded)) (ite_self l)

end Sys2Proof.Machine
end

section
/-! PROOF. Four-wire frames: the bits a frame takes, and the bytes of a frame (R24 to R26, R57 to R59, R62 to R67). -/

namespace Sys2Proof.Machine

/-! ### What a bit leaves of the frame -/

/-- `m` is `l` with its open frame moved on: its lane, select and configuration stay, and it does not contend. -/
structure FrameGoesOn (l m : Lane) : Prop where
  state : m.state = l.state := by rfl
  cfg : m.cfg = l.cfg := by rfl
  target : m.four.target = l.four.target := by rfl
  phase : m.four.phase ≠ .contended := by nofun

theorem produce_fields (p : Posting) (l : Lane) :
    (l.produce p).state = l.state ∧ (l.produce p).cfg = l.cfg ∧ (l.produce p).four = l.four := by
  unfold Lane.produce
  split <;> exact ⟨rfl, rfl, rfl⟩

theorem fourDataByte_goesOn (i : Fin 4) (a : Access) (register : List Byte) (b : Byte) (l : Lane) :
    FrameGoesOn l (l.fourDataByte i a register b) := by
  unfold Lane.fourDataByte
  split
  · obtain ⟨state, cfg, four⟩ := produce_fields
      ⟨⟨i, BitVec.ofNat 10 l.four.target.val, a.register⟩, a.dir, assemble l.cfg.byteOrder (register ++ [b]), l.cfg.w⟩ l
    have target := congrArg FourWire.target four
    exact { state, cfg, target }
  · exact {}

theorem fourByte_goesOn (i : Fin 4) (cb tb : Byte) {l : Lane} (h : l.four.phase ≠ .contended) :
    FrameGoesOn l (l.fourByte i cb tb) := by
  unfold Lane.fourByte
  split
  · split
    · refine { phase := ?_ }
      show afterCommand _ _ ≠ _
      unfold afterCommand
      split <;> nofun
    · exact {}
  · split
    · exact {}
    · exact {}
  · exact fourDataByte_goesOn i _ _ _ l
  · next hp => exact absurd hp h

theorem fourBit_goesOn (i : Fin 4) (cd td : Bool) {l : Lane} (h : l.four.phase ≠ .contended) :
    FrameGoesOn l (l.fourBit i cd td) := by
  unfold Lane.fourBit
  dsimp only
  split
  · have byte := fourByte_goesOn i (fourByteOf l.cfg.bitOrder (l.four.cBits ++ [cd])) (fourByteOf l.cfg.bitOrder (l.four.tBits ++ [td]))
      (l := { l with four := { l.four with cBits := [], tBits := [] } }) h
    exact { state := byte.state, cfg := byte.cfg, target := byte.target, phase := byte.phase }
  · exact { phase := h }

/-! ### The bytes of a frame -/

theorem fourByteOf_busBits (order : BitOrder) (b : Byte) : fourByteOf order (busBits order b) = b := by
  cases order with
  | msbFirst => exact byteOf_byteBits b
  | lsbFirst =>
    show byteOf (bitsNat (byteBits b).reverse.reverse) = b
    rw [List.reverse_reverse, byteOf_byteBits]

/-- The lane with its four-wire frame armed, on this select, in this phase and at a byte boundary. -/
def inFour (target : Fin 4) (ph : FourPhase) (l : Lane) : Lane := { l with four := ⟨true, [], [], target, ph⟩ }

/-- The lane after the bits of some pairs of bytes, one from each data role (R58). -/
def afterCells (i : Fin 4) (order : BitOrder) (cells : List (Byte × Byte)) (l : Lane) : Lane :=
  (cells.flatMap fun x => (busBits order x.1).zip (busBits order x.2)).foldl (fun l x => l.fourBit i x.1 x.2) l

theorem afterCells_append (i : Fin 4) (order : BitOrder) (xs ys : List (Byte × Byte)) (l : Lane) :
    afterCells i order (xs ++ ys) l = afterCells i order ys (afterCells i order xs l) := by
  rw [afterCells, List.flatMap_append, List.foldl_append]
  rfl

/-- Eight bits of a byte boundary are a byte of each data role (R58). -/
theorem fourBits_eight (i : Fin 4) (target : Fin 4) (ph : FourPhase) (l : Lane) {bits : List (Bool × Bool)} (h : bits.length = 8) :
    bits.foldl (fun l x => l.fourBit i x.1 x.2) (inFour target ph l) = (inFour target ph l).fourByte i
      (fourByteOf l.cfg.bitOrder (bits.map Prod.fst)) (fourByteOf l.cfg.bitOrder (bits.map Prod.snd)) := by
  have bit (x : Bool × Bool) (cs ts : List Bool) (hl : (cs ++ [x.1]).length ≠ 8) :
      Lane.fourBit i x.1 x.2 { l with four := ⟨true, cs, ts, target, ph⟩ }
        = { l with four := ⟨true, cs ++ [x.1], ts ++ [x.2], target, ph⟩ } := if_neg hl
  have walk (rest : List (Bool × Bool)) (cs ts : List Bool) (hl : cs.length + rest.length < 8) :
      rest.foldl (fun l x => l.fourBit i x.1 x.2) { l with four := ⟨true, cs, ts, target, ph⟩ }
        = { l with four := ⟨true, cs ++ rest.map Prod.fst, ts ++ rest.map Prod.snd, target, ph⟩ } := by
    induction rest generalizing cs ts with
    | nil => simp
    | cons x rest ih =>
      rw [List.length_cons] at hl
      rw [List.foldl_cons, bit x cs ts (by rw [List.length_append, List.length_singleton]; omega),
        ih _ _ (by rw [List.length_append, List.length_singleton]; omega)]
      simp
  have last (x : Bool × Bool) (cs ts : List Bool) (hl : (cs ++ [x.1]).length = 8) :
      Lane.fourBit i x.1 x.2 { l with four := ⟨true, cs, ts, target, ph⟩ } = (inFour target ph l).fourByte i
        (fourByteOf l.cfg.bitOrder (cs ++ [x.1])) (fourByteOf l.cfg.bitOrder (ts ++ [x.2])) := if_pos hl
  rcases List.eq_nil_or_concat bits with rfl | ⟨most, x, rfl⟩
  · exact nomatch h
  · rw [List.concat_eq_append] at h ⊢
    rw [List.length_append, List.length_singleton] at h
    rw [List.foldl_append, inFour, walk most [] [] (by rw [List.length_nil]; omega), List.map_append, List.map_append]
    exact last x _ _ (by rw [List.length_append, List.nil_append, List.length_map]; exact h)

theorem length_busBits (order : BitOrder) (b : Byte) : (busBits order b).length = 8 := by
  cases order <;> rfl

theorem afterCells_one (i : Fin 4) (x : Byte × Byte) (target : Fin 4) (ph : FourPhase) (l : Lane) :
    afterCells i l.cfg.bitOrder [x] (inFour target ph l) = (inFour target ph l).fourByte i x.1 x.2 := by
  have same : (busBits l.cfg.bitOrder x.1).length = (busBits l.cfg.bitOrder x.2).length := by
    rw [length_busBits, length_busBits]
  rw [afterCells, List.flatMap_singleton, fourBits_eight i target ph l (by rw [List.length_zip, ← same, length_busBits]; rfl),
    List.map_fst_zip same.le, List.map_snd_zip same.ge, fourByteOf_busBits, fourByteOf_busBits]

/-- Bytes that a phase collects up to its number of them, and what it does with the whole. -/
theorem afterCells_collect {i : Fin 4} {target : Fin 4} {l : Lane} {n : Nat} {ph : List (Byte × Byte) → FourPhase}
    {done : List (Byte × Byte) → Lane} (step : ∀ taken x, (inFour target (ph taken) l).fourByte i x.1 x.2 =
      if (taken ++ [x]).length = n then done (taken ++ [x]) else inFour target (ph (taken ++ [x])) l)
    {cells : List (Byte × Byte)} (hn : cells.length = n) (h0 : 0 < n) :
    afterCells i l.cfg.bitOrder cells (inFour target (ph []) l) = done cells := by
  have walk (rest taken : List (Byte × Byte)) (hl : taken.length + rest.length < n) :
      afterCells i l.cfg.bitOrder rest (inFour target (ph taken) l) = inFour target (ph (taken ++ rest)) l := by
    induction rest generalizing taken with
    | nil => rw [List.append_nil]; rfl
    | cons x rest ih =>
      rw [List.length_cons] at hl
      have more := ih (taken ++ [x]) (by rw [List.length_append, List.length_singleton]; omega)
      have split : x :: rest = [x] ++ rest := rfl
      rw [List.append_assoc] at more
      rw [split, afterCells_append, afterCells_one, step,
        if_neg (by rw [List.length_append, List.length_singleton]; omega)]
      exact more
  rcases List.eq_nil_or_concat cells with rfl | ⟨most, last, rfl⟩
  · exact absurd hn (by simpa using h0.ne)
  · rw [List.concat_eq_append] at hn ⊢
    rw [List.length_append, List.length_singleton] at hn
    rw [afterCells_append, walk most [] (by simpa using Nat.lt_of_lt_of_eq (Nat.lt_succ_self _) hn), List.nil_append,
      afterCells_one, step, if_pos (by rw [List.length_append]; exact hn)]

/-! ### Command, latency and register -/

/-- The bytes of a role of the cells: TDAT for a READ, CDAT for a WRITE (R65, R66). -/
def registerBytes (dir : Dir) (cells : List (Byte × Byte)) : List Byte := cells.map fun x => if dir = .read then x.2 else x.1

theorem afterCommandBytes {i target : Fin 4} {l : Lane} {cells : List (Byte × Byte)} (h : cells.length = l.cfg.a)
    (h0 : 0 < l.cfg.a) : afterCells i l.cfg.bitOrder cells (inFour target (.command []) l)
      = inFour target (afterCommand l.cfg (accessOf l.cfg (beNat (cells.map Prod.fst)))) l := by
  refine afterCells_collect (ph := fun taken => .command (taken.map Prod.fst))
    (done := fun all => inFour target (afterCommand l.cfg (accessOf l.cfg (beNat (all.map Prod.fst)))) l) (fun taken x => ?_) h h0
  rw [List.length_append, List.map_append, ← List.length_map (f := Prod.fst), List.length_singleton]
  exact congrArg (fun n => if n = _ then _ else _) (List.length_append)

theorem afterLatencyBytes {i target : Fin 4} {l : Lane} {a : Access} {cells : List (Byte × Byte)}
    (h : cells.length = l.cfg.latency) (h0 : 0 < l.cfg.latency) :
    afterCells i l.cfg.bitOrder cells (inFour target (.latency a 0) l) = inFour target (.data a []) l := by
  refine afterCells_collect (ph := fun taken => .latency a taken.length) (done := fun _ => inFour target (.data a []) l)
    (fun taken x => ?_) h h0
  rw [List.length_append, List.length_singleton]
  rfl

/-- The lane after a posting: in its slot, or lost with OVERRUN (R24). -/
def posted (p : Posting) (l : Lane) : Lane := if l.slot = none then { l with slot := some p } else flagged 0x001 l

theorem produce_inFour (p : Posting) (target : Fin 4) (ph : FourPhase) (l : Lane) :
    (inFour target ph l).produce p = inFour target ph (posted p l) := by
  rw [produce_eq, posted]
  by_cases free : l.slot = none
  · rw [if_pos free]
    exact if_pos free
  · rw [if_neg free]
    exact if_neg free

theorem afterRegisterBytes {i target : Fin 4} {l : Lane} {a : Access} {cells : List (Byte × Byte)}
    (h : cells.length = l.cfg.w) (h0 : 0 < l.cfg.w) : afterCells i l.cfg.bitOrder cells (inFour target (.data a []) l)
      = inFour target (.data (stepAccess l.cfg a) []) (posted
        ⟨⟨i, BitVec.ofNat 10 target.val, a.register⟩, a.dir, orderedValue l.cfg.byteOrder (registerBytes a.dir cells), l.cfg.w⟩ l) := by
  refine afterCells_collect (ph := fun taken => .data a (registerBytes a.dir taken))
    (done := fun all => inFour target (.data (stepAccess l.cfg a) []) (posted
      ⟨⟨i, BitVec.ofNat 10 target.val, a.register⟩, a.dir, orderedValue l.cfg.byteOrder (registerBytes a.dir all), l.cfg.w⟩ l)) (fun taken x => ?_) h h0
  have role : (match a.dir with
      | .write => x.1
      | .read => x.2) = if a.dir = .read then x.2 else x.1 := by cases a.dir <;> rfl
  have joined : registerBytes a.dir taken ++ [if a.dir = .read then x.2 else x.1] = registerBytes a.dir (taken ++ [x]) := by
    rw [registerBytes, registerBytes, List.map_append]
    rfl
  have length : (registerBytes a.dir (taken ++ [x])).length = (taken ++ [x]).length := List.length_map _
  have byte : (inFour target (.data a (registerBytes a.dir taken)) l).fourByte i x.1 x.2 = (inFour target
      (.data a (registerBytes a.dir taken)) l).fourDataByte i a (registerBytes a.dir taken) (if a.dir = .read then x.2 else x.1) := by
    rw [← role]
    rfl
  have kept : (posted ⟨⟨i, BitVec.ofNat 10 target.val, a.register⟩, a.dir,
      orderedValue l.cfg.byteOrder (registerBytes a.dir (taken ++ [x])), l.cfg.w⟩ l).cfg = l.cfg := by
    unfold posted
    split <;> rfl
  rw [byte, Lane.fourDataByte, joined, length, produce_inFour, assemble_eq]
  by_cases full : (taken ++ [x]).length = l.cfg.w
  · refine (if_pos full).trans (.trans ?_ (if_pos full).symm)
    exact congrArg (fun c => inFour target (.data (stepAccess c a) []) (posted _ l)) kept
  · exact (if_neg full).trans (if_neg full).symm

/-! ### The access a command names -/

theorem beNat_eq (cells : List (Byte × Byte)) :
    beNat (cells.map Prod.fst) = cells.foldl (fun n c => 256 * n + c.1.toNat) 0 := by
  rw [beNat, foldl_values, List.foldl_map]

/-- A register stepped within a range that sixteen bits hold (R26). -/
theorem stepRegister_mod {range v : Nat} (h0 : 0 < range) (h : range ≤ 65536) :
    stepRegister range (BitVec.ofNat 16 (v % range)) = BitVec.ofNat 16 ((v % range + 1) % range) := by
  have small : v % range < range := Nat.mod_lt v h0
  have held : (BitVec.ofNat 16 (v % range)).toNat = v % range := by
    rw [BitVec.toNat_ofNat]
    exact Nat.mod_eq_of_lt (by omega)
  rw [stepRegister, held]
  split
  · next last => rw [last, Nat.mod_self]; rfl
  · have next : (v % range + 1) % range = v % range + 1 := Nat.mod_eq_of_lt (by omega)
    rw [next, BitVec.ofNat_add]
    rfl

theorem fourRange_eq (c : LaneConfig) :
    fourRange c = if c.autoinc = .flag then 2 ^ (8 * c.a - 2) else 2 ^ (8 * c.a - 1) := by
  unfold fourRange
  split <;> rfl

theorem fourRange_bounds {c : LaneConfig} (h : c.a = 1 ∨ c.a = 2) : 0 < fourRange c ∧ fourRange c ≤ 65536 := by
  rw [fourRange_eq]
  rcases h with h | h <;> rw [h] <;> split <;> decide

/-- The register of an access after a register completes (R26, R63). -/
theorem stepAccess_eq {c : LaneConfig} (h : c.a = 1 ∨ c.a = 2) (dir : Dir) (inc : Bool) (v : Nat) :
    stepAccess c ⟨dir, inc, BitVec.ofNat 16 (v % fourRange c)⟩ = ⟨dir, inc, BitVec.ofNat 16
      (if c.autoinc = .always || (c.autoinc = .flag && inc) then (v % fourRange c + 1) % fourRange c else v % fourRange c)⟩ := by
  obtain ⟨positive, small⟩ := fourRange_bounds h
  have asked : (c.autoinc = .always ∨ (c.autoinc = .flag ∧ inc = true))
      ↔ (decide (c.autoinc = .always) || (decide (c.autoinc = .flag) && inc)) = true := by simp
  unfold stepAccess
  simp only [asked]
  split
  · rw [stepRegister_mod positive small]
  · rfl

theorem accessOf_eq (c : LaneConfig) (v : Nat) : accessOf c v =
    ⟨if v.testBit (8 * c.a - 1) = (c.polarity == .readIsOne) then .read else .write,
      c.autoinc = .flag && v.testBit (8 * c.a - 2), BitVec.ofNat 16 (v % fourRange c)⟩ := by
  unfold accessOf
  simp only [beq_iff_eq]

/-- The frame of a lane from its opening on (R62, R64, R65, R66). -/
theorem afterFrame {i target : Fin 4} {l : Lane} {a : Access} {commands latency register : List (Byte × Byte)}
    (hc : commands.length = l.cfg.a) (ha : 0 < l.cfg.a) (hr : register.length = l.cfg.w) (hw : 0 < l.cfg.w)
    (hacc : accessOf l.cfg (beNat (commands.map Prod.fst)) = a)
    (hl : latency.length = if a.dir = .read then l.cfg.latency else 0) :
    afterCells i l.cfg.bitOrder (commands ++ latency ++ register) (inFour target (.command []) l)
      = inFour target (.data (stepAccess l.cfg a) []) (posted
        ⟨⟨i, BitVec.ofNat 10 target.val, a.register⟩, a.dir, orderedValue l.cfg.byteOrder (registerBytes a.dir register), l.cfg.w⟩
        l) := by
  have waited : afterCells i l.cfg.bitOrder latency (inFour target (afterCommand l.cfg a) l) = inFour target (.data a []) l := by
    unfold afterCommand
    by_cases hd : a.dir = .read ∧ l.cfg.latency ≠ 0
    · rw [if_pos hd.1] at hl
      rw [if_pos hd]
      exact afterLatencyBytes hl (Nat.pos_of_ne_zero hd.2)
    · have none : latency = [] := by
        refine List.length_eq_zero_iff.1 (hl.trans ?_)
        split
        · next read => exact not_not.1 fun h => hd ⟨read, h⟩
        · rfl
      rw [if_neg hd, none]
      rfl
  rw [afterCells_append, afterCells_append, afterCommandBytes hc ha, hacc, waited, afterRegisterBytes hr hw]

/-! ### The bits a frame takes -/

theorem clockMode_edges {mode : Nat} {idle rising : Bool}
    (h : (mode, idle, rising) ∈ [(0, false, true), (1, false, false), (2, true, false), (3, true, true)]) :
    idleLevel mode = idle ∧ samplesRising mode = rising := by
  simp only [List.mem_cons, Prod.mk.injEq, List.not_mem_nil, or_false] at h
  rcases h with ⟨rfl, rfl, rfl⟩ | ⟨rfl, rfl, rfl⟩ | ⟨rfl, rfl, rfl⟩ | ⟨rfl, rfl, rfl⟩ <;> exact ⟨rfl, rfl⟩

/-- Settles O52: the bits of a frame by the four steps of a change, its bytes by `afterFrame`. -/
theorem fourWireFramePosts : Obligations.FourWireFramePosts := by
  constructor
  · rintro i l sampled armed lv lv' idle rising hk hs hp hc hsel hmode hsampled harmed
    obtain ⟨hidle, hrising⟩ := clockMode_edges hmode
    obtain ⟨t, ht⟩ : ∃ t, l.four.target = t := ⟨_, rfl⟩
    rw [ht] at hc hsel
    have takes : l.takesBits = true := by simp [Lane.takesBits, hs, hp]
    have sample : l.fourSample i lv lv' = sampled := by
      rw [hsampled, Lane.fourSample, takes, hrising]
      simp only [true_and]
    have goesOn : FrameGoesOn l sampled := by
      rw [hsampled]
      split
      · exact fourBit_goesOn i _ _ hp
      · exact { phase := hp }
    have arm : sampled.fourArm lv' = armed := by
      rw [harmed, Lane.fourArm, goesOn.state, goesOn.cfg, hidle, hs]
      simp only [true_and]
    obtain ⟨state, cfg, phase, target⟩ := fourArm_fields sampled lv'
    rw [arm] at state cfg phase target
    have armedState : armed.state = .inFrame := state.trans (goesOn.state.trans hs)
    have armedCfg : armed.cfg = l.cfg := cfg.trans goesOn.cfg
    have armedPhase : armed.four.phase ≠ .contended := phase ▸ goesOn.phase
    have armedTarget : armed.four.target = t := target.trans (goesOn.target.trans ht)
    have own : lv (l.cfg.pins.sel[t]) = false := (hsel t hc).2 rfl
    have change : laneChange i lv lv' l = ⟨(armed.fourReleases lv lv').lane.fourActivations lv lv',
        (armed.fourReleases lv lv').completed⟩ := by
      rw [laneChange_fourWire hk (by rw [hs]; nofun), fourWireChange_eq (by rw [sample, arm]) rfl]
    have released (ha : lv' (l.cfg.pins.sel[t]) = true) : armed.fourReleases lv lv' = ⟨closedFour armed, true⟩ :=
      fourReleases_own armedState armedPhase armedTarget (by rw [armedCfg]; exact own) (by rw [armedCfg]; exact ha)
    have closedCfg : (closedFour armed).cfg = l.cfg := (closedFour_fields armed).2.trans armedCfg
    refine ⟨fun hsame => ?_, fun hall => ?_, fun next hn hne hnext => ?_⟩
    · have quiet : someActivated armed.cfg lv lv' = false := by
        rw [armedCfg]
        refine noneActivated fun n hn => ?_
        rw [hsame n hn]
        cases lv (l.cfg.pins.sel[n])
        · exact .inr rfl
        · exact .inl rfl
      rw [change, fourReleases_keeps armedState armedPhase armedTarget (by rw [armedCfg, hsame t hc]; exact own)]
      exact congrArg (fun m => (⟨m, false⟩ : Decoded)) (fourActivations_none quiet)
    · have quiet : someActivated (closedFour armed).cfg lv lv' = false := by
        rw [closedCfg]
        exact noneActivated fun n hn => .inl (hall n hn)
      rw [change, released (hall t hc)]
      exact congrArg (fun m => (⟨m, true⟩ : Decoded)) (fourActivations_none quiet)
    · have gone : lv' (l.cfg.pins.sel[t]) = true := by
        cases h : lv' (l.cfg.pins.sel[t])
        · exact absurd ((hnext t hc).1 h).symm (ht ▸ hne)
        · rfl
      have fresh : lv (l.cfg.pins.sel[next]) = true := by
        cases h : lv (l.cfg.pins.sel[next])
        · exact absurd ((hsel next hn).1 h) (ht ▸ hne)
        · rfl
      have opened := fourActivations_opens (lv := lv) (lv' := lv') (sel := next) (closedFour_fields armed).1
        (by rw [closedCfg]; exact hn) (by rw [closedCfg]; exact fresh) (by rw [closedCfg]; exact hnext)
      rw [change, released gone]
      refine congrArg (fun m => (⟨m, true⟩ : Decoded)) (opened.trans ?_)
      dsimp only
      rw [closedCfg, hidle]
  · rintro i l target commands latency register v range dir step inc hs hfour hc ha hr hw hv hdir hinc hstep hrange hl
    have ranges : fourRange l.cfg = range := (fourRange_eq l.cfg).trans hrange.symm
    have direction : (if v.testBit (8 * l.cfg.a - 1) = (l.cfg.polarity == .readIsOne) then Dir.read else .write) = dir := by
      rw [hdir]
      cases l.cfg.polarity <;> rfl
    have access : accessOf l.cfg (beNat (commands.map Prod.fst)) = ⟨dir, inc, BitVec.ofNat 16 (v % range)⟩ := by
      rw [beNat_eq, ← hv, accessOf_eq, direction, ← hinc, ranges]
    have stepped : stepAccess l.cfg ⟨dir, inc, BitVec.ofNat 16 (v % range)⟩
        = ⟨dir, inc, BitVec.ofNat 16 (if step then (v % range + 1) % range else v % range)⟩ := by
      have flag : (l.cfg.autoinc = .flag && inc) = inc := by rw [hinc]; cases decide (l.cfg.autoinc = .flag) <;> rfl
      rw [← ranges, stepAccess_eq ha, flag, hstep]
    have start : inFour target (.command []) l = l := by rw [inFour, ← hfour]
    have frame := afterFrame (i := i) (target := target) hc (by omega) hr (by omega) access hl
    rw [start, stepped] at frame
    exact frame

end Sys2Proof.Machine
end
